-- ==== Sys2Proof/Syntax.lean ====
section
/-! DEFINITION. The operations of FCODEC, one constructor per row of spec/opcode_table.json (30_encoding.md R62).
No operation has an operand field (R61): each takes its operands from registers and buffers. -/

namespace Sys2Proof

/-- The seven operations a host starts by writing an operation word to OP. -/
inductive Instr where
  /-- NOP, word 0x0000 (43_control.md R88). -/
  | nop
  /-- ENCODE, word 0x0001 (40_frame_codec.md R70). -/
  | encode
  /-- TRANSMIT, word 0x0002 (42_transport_framing.md R77). -/
  | transmit
  /-- CHECKSUM, word 0x0003 (41_checksum.md R76). -/
  | checksum
  /-- RECEIVE, word 0x0004 (42_transport_framing.md R80). -/
  | receive
  /-- DECODE, word 0x0005 (40_frame_codec.md R71). -/
  | decode
  /-- RESET, word 0x000F (43_control.md R89). -/
  | reset
  deriving DecidableEq, Repr

end Sys2Proof
end

