-- ==== Sys2Proof/Word.lean ====
section
/-! DEFINITION. The widths FCODEC is built from (00_scope.md R6, R7): bytes of the wire and of the buffers, the
16-bit locations of the host bus, its 12-bit word addresses, and the 9-bit byte counts. -/

namespace Sys2Proof

/-- `u8`: a frame byte, a buffer byte, an 8-bit register field. `+8` and `neg8` of R7 are its `+` and `-`. -/
abbrev Byte := BitVec 8

/-- `u9`: a count or index of frame bytes, 0 to 511 (TX_FLEN, TX_SENT, RX_NBYTES, RX_COUNT, `rx_need`). -/
abbrev Count := BitVec 9

/-- `u12`: a word address of the host address space (20_memory.md R38). -/
abbrev Addr := BitVec 12

/-- `u16`: one location of the host address space, and an operation word (20_memory.md R39, 30_encoding.md R61). -/
abbrev Word := BitVec 16

end Sys2Proof
end

