-- ==== Sys2Proof/Decode.lean ====
section
/-! DEFINITION. The operation word of 30_encoding.md R61: its two fields, the decoder (total; an illegal word is
rejected with its reason, R63) and the encoder. -/

namespace Sys2Proof

/-- Why an operation word is illegal (30_encoding.md R63). -/
inductive IllegalWord where
  /-- Bits [15:4], which must be 0, hold this value. -/
  | reservedBitsSet (mbz : BitVec 12)
  /-- Bits [15:4] are 0 and this OPCODE, 0x6 to 0xE, names no operation. -/
  | opcodeUnassigned (op : BitVec 4)
  deriving DecidableEq, Repr

/-- OPCODE, bits [3:0] (R61). -/
def opcodeField (v : Word) : BitVec 4 := v.extractLsb' 0 4

/-- MBZ, bits [15:4] (R61). -/
def mbzField (v : Word) : BitVec 12 := v.extractLsb' 4 12

/-- The operation an OPCODE names (R62); OPCODE 0x6 to 0xE name none (R63). -/
def instrOfOpcode : Nat → Option Instr
  | 0x0 => some .nop
  | 0x1 => some .encode
  | 0x2 => some .transmit
  | 0x3 => some .checksum
  | 0x4 => some .receive
  | 0x5 => some .decode
  | 0xF => some .reset
  | _ => none

/-- The operation an operation word starts, or why it is illegal (R61 to R63). -/
def decode (v : Word) : Except IllegalWord Instr :=
  if mbzField v = 0#12 then
    match instrOfOpcode (opcodeField v).toNat with
    | some i => .ok i
    | none => .error (.opcodeUnassigned (opcodeField v))
  else .error (.reservedBitsSet (mbzField v))

/-- The OPCODE of an operation (R62). -/
def opcodeOf : Instr → BitVec 4
  | .nop => 0x0#4
  | .encode => 0x1#4
  | .transmit => 0x2#4
  | .checksum => 0x3#4
  | .receive => 0x4#4
  | .decode => 0x5#4
  | .reset => 0xF#4

/-- The operation word of an operation: OPCODE in [3:0], MBZ = 0 (R61, R62). -/
def encode (i : Instr) : Word := 0#12 ++ opcodeOf i

/-- The operation word among the low `nbits` bits of `w`, bit 0 least significant. An operation word is one 16-bit
location of the host bus, so any bit above 15 is no part of it (log 17). -/
def wordOfTable (nbits w : Nat) : Word := BitVec.ofNat 16 (w % 2 ^ nbits)

/-- What the decoder reads from an instruction numbered as spec/opcode_table.json numbers it. -/
def decodeTableWord (nbits w : Nat) : Option Instr :=
  match decode (wordOfTable nbits w) with
  | .ok i => some i
  | .error _ => none

end Sys2Proof
end

