-- ==== Sys2Proof/Config.lean ====
section
/-! DEFINITION. The implementation parameters of 00_scope.md R6, the bases of the buffers (20_memory.md R38), and the
one family of free values the spec leaves open: what the buffers hold at power-on. -/

namespace Sys2Proof.Config

/-- `HDR0`, the first header byte (R6, 30_encoding.md R55). -/
abbrev hdr0 : Byte := 0xAA#8

/-- `HDR1`, the second header byte (R6, 30_encoding.md R55). -/
abbrev hdr1 : Byte := 0xAA#8

/-- `MAX_PARAMS` (R6), the size of TX_PARAM. -/
abbrev maxParams : Nat := 253

/-- `MIN_FRAME` (R6). -/
abbrev minFrame : Nat := 6

/-- `MAX_FRAME` (R6), the size of TX_FRAME and of RX_FRAME. -/
abbrev maxFrame : Nat := 259

/-- `VALIDATE_CMD_ID` (R6): only `false` is specified (92_eei_decisions.md D20), so no rule reads it and the status
UNRECOGNIZED_COMMAND_ID is never written. -/
abbrev validateCmdId : Bool := false

/-- Address of TX_PARAM[0] (20_memory.md R38). -/
abbrev txParamBase : Nat := 0x100

/-- Address of TX_FRAME[0] (20_memory.md R38). -/
abbrev txFrameBase : Nat := 0x200

/-- Address of RX_FRAME[0] (20_memory.md R38). -/
abbrev rxFrameBase : Nat := 0x400

/-- FREE VALUE (log 1): the byte that the buffer location at an address holds at power-on. 70_reset_and_hazards.md
R103 leaves it unspecified, and 93_implementation_defined.md I1 makes it any value, chosen once at power-on and never
assumed 0. It has no body here, so nothing can be proved of it. -/
opaque powerOnByte : Nat → Byte

end Sys2Proof.Config
end

