-- ==== Sys2Proof/Machine/AddressMap.lean ====
section
/-! DEFINITION. The map of the host address space (10_state.md R12, 20_memory.md R38): what stands at each of its
4096 word addresses. -/

namespace Sys2Proof.Machine

/-- The 19 registers (10_state.md R12). -/
inductive Reg where
  | op
  | gstatus
  | txStatus
  | rxStatus
  | txCmd
  | txCtrl
  | txPlen
  | txCsum
  | txFlen
  | txSent
  | rxNbytes
  | rxCount
  | rxLen
  | rxCmd
  | rxCtrl
  | rxPlen
  | rxCsumExp
  | rxCsumRcv
  | rxValid
  deriving DecidableEq, Repr

/-- The address of a register (10_state.md R12). -/
def Reg.addr : Reg → Addr
  | .op => 0x000#12
  | .gstatus => 0x001#12
  | .txStatus => 0x002#12
  | .rxStatus => 0x003#12
  | .txCmd => 0x004#12
  | .txCtrl => 0x005#12
  | .txPlen => 0x006#12
  | .txCsum => 0x007#12
  | .txFlen => 0x008#12
  | .txSent => 0x009#12
  | .rxNbytes => 0x00A#12
  | .rxCount => 0x00B#12
  | .rxLen => 0x00C#12
  | .rxCmd => 0x00D#12
  | .rxCtrl => 0x00E#12
  | .rxPlen => 0x00F#12
  | .rxCsumExp => 0x010#12
  | .rxCsumRcv => 0x011#12
  | .rxValid => 0x012#12

/-- The register at an address below 0x013 (10_state.md R12). -/
def regAt : Nat → Option Reg
  | 0x000 => some .op
  | 0x001 => some .gstatus
  | 0x002 => some .txStatus
  | 0x003 => some .rxStatus
  | 0x004 => some .txCmd
  | 0x005 => some .txCtrl
  | 0x006 => some .txPlen
  | 0x007 => some .txCsum
  | 0x008 => some .txFlen
  | 0x009 => some .txSent
  | 0x00A => some .rxNbytes
  | 0x00B => some .rxCount
  | 0x00C => some .rxLen
  | 0x00D => some .rxCmd
  | 0x00E => some .rxCtrl
  | 0x00F => some .rxPlen
  | 0x010 => some .rxCsumExp
  | 0x011 => some .rxCsumRcv
  | 0x012 => some .rxValid
  | _ => none

/-- What stands at an address: a register, byte i of a buffer, or nothing (20_memory.md R38). -/
inductive Location where
  | reg (r : Reg)
  | txParam (i : Nat)
  | txFrame (i : Nat)
  | rxFrame (i : Nat)
  | reserved
  deriving DecidableEq, Repr

/-- Address `n` is byte i of the buffer of `size` bytes at `base`. -/
def indexIn (base size n : Nat) : Option Nat := if base ≤ n ∧ n < base + size then some (n - base) else none

/-- The map of 20_memory.md R38. -/
def locate (a : Addr) : Location :=
  match regAt a.toNat with
  | some r => .reg r
  | none =>
    match indexIn Config.txParamBase Config.maxParams a.toNat with
    | some i => .txParam i
    | none =>
      match indexIn Config.txFrameBase Config.maxFrame a.toNat with
      | some i => .txFrame i
      | none =>
        match indexIn Config.rxFrameBase Config.maxFrame a.toNat with
        | some i => .rxFrame i
        | none => .reserved

/-- The addresses that hold a buffer byte (20_memory.md R38). -/
def isBufferAddr (n : Nat) : Bool :=
  (indexIn Config.txParamBase Config.maxParams n).isSome || (indexIn Config.txFrameBase Config.maxFrame n).isSome ||
    (indexIn Config.rxFrameBase Config.maxFrame n).isSome

end Sys2Proof.Machine
end

