-- ==== Sys2Proof/Machine/State.lean ====
section
/-! DEFINITION. Everything the spec gives FCODEC and its two channels, as plain data (10_state.md), and its state
after power-on reset (70_reset_and_hazards.md R102). -/

namespace Sys2Proof.Machine

/-- `phase_tx` (10_state.md R33). -/
inductive PhaseTx where
  | idle
  | send
  | failed
  deriving DecidableEq, Repr

/-- `phase_rx` (10_state.md R34). -/
inductive PhaseRx where
  | idle
  | recv
  | failed
  deriving DecidableEq, Repr

/-- GSTATUS.OPERR, the result of the last write to OP (10_state.md R16). Values 4 to 7 never occur (I7; log 11). -/
inductive OpErr where
  | accepted
  | illegalOp
  | engineBusy
  | engineFailed
  deriving DecidableEq, Repr

/-- The named status codes (60_exceptions.md R90). 0x9 to 0xD have no name and are never written (I6; log 11). -/
inductive StatusCode where
  | ok
  | paramsTooLong
  | truncated
  | integrityMismatch
  | transportFailure
  | badHeader
  | badLength
  /-- Reserved, never written: `VALIDATE_CMD_ID = false`. -/
  | unrecognizedCommandId
  /-- Reserved, never written: raised by the Session Controller, out of scope. -/
  | malformedResponse
  | inProgress
  | none
  deriving DecidableEq, Repr

/-- The error kinds FCODEC raises (60_exceptions.md R92). -/
inductive ErrorKind where
  | paramsTooLong
  | truncated
  | badHeader
  | badLength
  | integrityMismatch
  | transportFailure
  deriving DecidableEq, Repr

/-- The engine an operation or step belongs to, whose status register `raise` writes (60_exceptions.md R91). -/
inductive Engine where
  | tx
  | rx
  deriving DecidableEq, Repr

/-- An event of the input channel (20_memory.md R47). -/
inductive RxEvent where
  | byte (b : Byte)
  | closed
  | error
  deriving DecidableEq, Repr

/-- The output channel's answer to an offered byte (20_memory.md R48). -/
inductive TxAnswer where
  | accept
  | error
  deriving DecidableEq, Repr

/-- One step of the model and the agent that takes it (00_scope.md R5, R9), the environment's included. -/
inductive Action where
  /-- The host: `MemRead(a, 1)`. -/
  | hostRead (a : Addr)
  /-- The host: `MemWrite(a, 1, v)`. -/
  | hostWrite (a : Addr) (v : Word)
  /-- The transmit engine: one step (42_transport_framing.md R78). -/
  | txStep
  /-- The receive engine: one step (42_transport_framing.md R81, R82). -/
  | rxStep
  /-- The environment: the input channel offers one more event. -/
  | offer (e : RxEvent)
  /-- The environment: the output channel answers one more offered byte. -/
  | answer (r : TxAnswer)
  deriving DecidableEq, Repr

/-- The three buffers: (word address, byte) of every buffer location written since power-on, addresses strictly
rising. An address not listed holds its power-on byte (log 1, log 2). -/
abbrev Memory := List Host.Cell

/-- The state of FCODEC and of its channels. -/
structure State where
  /-- GSTATUS.OPERR (R16). -/
  opErr : OpErr
  /-- TX_STATUS (R17). -/
  txStatus : StatusCode
  /-- RX_STATUS (R17). -/
  rxStatus : StatusCode
  /-- TX_CMD (R18). -/
  txCmd : Byte
  /-- TX_CTRL (R19). -/
  txCtrl : Byte
  /-- TX_PLEN (R20). -/
  txPlen : Byte
  /-- TX_CSUM (R21). -/
  txCsum : Byte
  /-- TX_FLEN (R22). -/
  txFlen : Count
  /-- TX_SENT (R23). -/
  txSent : Count
  /-- RX_NBYTES (R24). -/
  rxNbytes : Count
  /-- RX_COUNT (R25). -/
  rxCount : Count
  /-- RX_LEN (R26). -/
  rxLen : Byte
  /-- RX_CMD (R26). -/
  rxCmd : Byte
  /-- RX_CTRL (R26). -/
  rxCtrl : Byte
  /-- RX_PLEN (R26). -/
  rxPlen : Byte
  /-- RX_CSUM_EXP (R27). -/
  rxCsumExp : Byte
  /-- RX_CSUM_RCV (R27). -/
  rxCsumRcv : Byte
  /-- RX_VALID (R28). -/
  rxValid : Bool
  /-- `phase_tx` (R33). -/
  phaseTx : PhaseTx
  /-- `phase_rx` (R34). -/
  phaseRx : PhaseRx
  /-- `rx_need` (R34). -/
  rxNeed : Count
  /-- TX_PARAM, TX_FRAME and RX_FRAME (R30 to R32), by host address. -/
  mem : Memory
  /-- The input channel: events offered and not yet taken, next first (R36). -/
  rxIn : List RxEvent
  /-- The input channel has delivered `Closed` or `Error`: it delivers nothing more (20_memory.md R47; log 6). -/
  rxInEnded : Bool
  /-- `out`: the bytes emitted so far, oldest first (R36). -/
  out : List Byte
  /-- The output channel's answers to the next offered bytes; empty is "none yet" (R36; log 7). -/
  txAnswers : List TxAnswer
  /-- The MODEL's own: the steps still to be taken, next first (log 3). -/
  agenda : List Action
  /-- The MODEL's own: the values host reads have returned, oldest first (00_scope.md R10; log 9). -/
  hostReads : List Word
  deriving DecidableEq, Repr

/-- Why the machine stops. FCODEC has no trap (60_exceptions.md R94): its errors are status codes and go on. -/
inductive Fault where
  /-- The transmit engine would read TXF[TX_SENT] with TX_SENT > 258, a byte TX_FRAME does not have (R31). Raised by
  a transmit step only; SAFE: TX_SENT <= TX_FLEN <= 259 while it runs (R23), so no run reaches it (log 8). -/
  | txFrameIndex
  /-- DECODE would read past RXF[258] (RX_NBYTES > 259), or the receive engine would write RXF[RX_COUNT] with
  RX_COUNT > 258, a byte RX_FRAME does not have (R32). SAFE: R24 and 42_transport_framing.md R81 keep both counts
  legal, so no run reaches it (log 8). -/
  | rxFrameIndex
  deriving DecidableEq, Repr

/-- Why a step has no meaning. -/
inductive Refusal where
  /-- Raised by `exec` for an operation that has no meaning yet; no operation is left so. SAFE. -/
  | notModelled (mnemonic : String)
  deriving DecidableEq, Repr

/-- What a step answers. -/
abbrev Result := Host.Outcome State Fault Refusal

/-- The state after power-on reset: every register of 10_state.md R12 at its reset value, both engines IDLE,
`rx_need = 3`, `out = []` (70_reset_and_hazards.md R102). The buffers hold their power-on bytes: nothing is listed
(R103; log 1). The channels and the agenda are empty until the environment and the host act (log 5, log 12). -/
def State.reset : State where
  opErr := .accepted
  txStatus := .none
  rxStatus := .none
  txCmd := 0#8
  txCtrl := 0#8
  txPlen := 0#8
  txCsum := 0#8
  txFlen := 0#9
  txSent := 0#9
  rxNbytes := 0#9
  rxCount := 0#9
  rxLen := 0#8
  rxCmd := 0#8
  rxCtrl := 0#8
  rxPlen := 0#8
  rxCsumExp := 0#8
  rxCsumRcv := 0#8
  rxValid := false
  phaseTx := .idle
  phaseRx := .idle
  rxNeed := 3#9
  mem := []
  rxIn := []
  rxInEnded := false
  out := []
  txAnswers := []
  agenda := []
  hostReads := []

end Sys2Proof.Machine
end

