-- ==== Sys2Proof/Machine/Frame.lean ====
section
/-! DEFINITION. The wire frame and the pure functions of the codec: `Checksum` (41_checksum.md R74), `Encode`
(40_frame_codec.md R66), `Decode` (R67), and the fields of the control byte (30_encoding.md R58). -/

namespace Sys2Proof.Machine

/-! ### The control byte -/

/-- `control = (queued<<1)|rw`, bits [7:2] 0 (30_encoding.md R58, R59). -/
def controlByte (rw queued : Bool) : Byte := ((BitVec.ofBool queued).zeroExtend 8 <<< 1) ||| (BitVec.ofBool rw).zeroExtend 8

/-- Bit 0, the read/write flag; FCODEC does not interpret it (30_encoding.md R58). -/
def controlRw (c : Byte) : Bool := c.getLsbD 0

/-- Bit 1, the queued flag (30_encoding.md R58). -/
def controlQueued (c : Byte) : Bool := c.getLsbD 1

/-- Bits [7:2], reserved and carried as they are (30_encoding.md R59). -/
def controlReserved (c : Byte) : BitVec 6 := c.extractLsb' 2 6

/-! ### The checksum -/

/-- `Checksum(cmd, ctrl, params)`: start with cmd, add ctrl, add every param in order, each addition wrapping, then
negate (41_checksum.md R74). -/
def checksum (cmd ctrl : Byte) (params : List Byte) : Byte := -(params.foldl (· + ·) (cmd + ctrl))

/-! ### The encoder -/

/-- The frame `[0xAA, 0xAA, P + 2, cmd, ctrl] ++ params ++ [checksum]` (30_encoding.md R54). The length byte is
`P + 2` for P <= 253, the only lengths `encodeFrame` gives it. -/
def frameBytes (cmd ctrl : Byte) (params : List Byte) : List Byte :=
  [Config.hdr0, Config.hdr1, BitVec.ofNat 8 (params.length + 2), cmd, ctrl] ++ params ++ [checksum cmd ctrl params]

/-- `Encode(cmd, ctrl, params)` (40_frame_codec.md R66). -/
def encodeFrame (cmd ctrl : Byte) (params : List Byte) : Except ErrorKind (List Byte) :=
  if Config.maxParams < params.length then .error .paramsTooLong else .ok (frameBytes cmd ctrl params)

/-! ### The decoder -/

/-- The Message a decode exposes (40_frame_codec.md R67). -/
structure Message where
  length : Byte
  commandId : Byte
  control : Byte
  params : List Byte
  checksum : Byte
  deriving DecidableEq, Repr

/-- Why a decode fails, with the information it carries (40_frame_codec.md R67, 60_exceptions.md R92). -/
inductive DecodeFailure where
  | truncated
  | badHeader
  | badLength
  | integrityMismatch (expected received : Byte)
  deriving DecidableEq, Repr

/-- Byte i of a buffer; the checks of `decodeFrame` read only bytes that the checks before them have shown to exist. -/
def byteAt (bs : List Byte) (i : Nat) : Byte := bs.getD i 0#8

/-- `params = B[5 .. 5+P)` of a buffer whose length byte is L = P + 2 (40_frame_codec.md R67). -/
def paramsOf (bs : List Byte) (l : Nat) : List Byte := (bs.drop 5).take (l - 2)

/-- `Decode(B)`, its checks in the order of 40_frame_codec.md R67 and 60_exceptions.md R93. -/
def decodeFrame (bs : List Byte) : Except DecodeFailure Message :=
  let n := bs.length
  let l := (byteAt bs 2).toNat
  let cmd := byteAt bs 3
  let ctrl := byteAt bs 4
  let params := paramsOf bs l
  let expected := checksum cmd ctrl params
  let received := byteAt bs (l + 3)
  if n < Config.minFrame then .error .truncated
  else if byteAt bs 0 ≠ Config.hdr0 ∨ byteAt bs 1 ≠ Config.hdr1 then .error .badHeader
  else if l < 2 then .error .badLength
  else if n < l + 4 then .error .truncated
  else if l + 4 < n then .error .badLength
  else if expected ≠ received then .error (.integrityMismatch expected received)
  else .ok { length := byteAt bs 2, commandId := cmd, control := ctrl, params := params, checksum := received }

end Sys2Proof.Machine
end

