-- ==== Sys2Proof/Machine/Flags.lean ====
section
/-! DEFINITION. The flags and codes of FCODEC (10_state.md R16, R17, R28, R29): the numbers of the status codes and
of OPERR, the four views of the engine phases, and GSTATUS. It has no condition codes. -/

namespace Sys2Proof.Machine

/-- The 4-bit number of a status code (60_exceptions.md R90). -/
def StatusCode.code : StatusCode → BitVec 4
  | .ok => 0x0#4
  | .paramsTooLong => 0x1#4
  | .truncated => 0x2#4
  | .integrityMismatch => 0x3#4
  | .transportFailure => 0x4#4
  | .badHeader => 0x5#4
  | .badLength => 0x6#4
  | .unrecognizedCommandId => 0x7#4
  | .malformedResponse => 0x8#4
  | .inProgress => 0xE#4
  | .none => 0xF#4

/-- The 3-bit number of an OPERR value (10_state.md R16). -/
def OpErr.code : OpErr → BitVec 3
  | .accepted => 0#3
  | .illegalOp => 1#3
  | .engineBusy => 2#3
  | .engineFailed => 3#3

/-- The status code an error kind is reported by (60_exceptions.md R90, R92). -/
def ErrorKind.status : ErrorKind → StatusCode
  | .paramsTooLong => .paramsTooLong
  | .truncated => .truncated
  | .badHeader => .badHeader
  | .badLength => .badLength
  | .integrityMismatch => .integrityMismatch
  | .transportFailure => .transportFailure

/-- GSTATUS.TX_BUSY: 1 iff `phase_tx = SEND` (R16). -/
def txBusy (s : State) : Bool := decide (s.phaseTx = .send)

/-- GSTATUS.RX_BUSY: 1 iff `phase_rx = RECV` (R16). -/
def rxBusy (s : State) : Bool := decide (s.phaseRx = .recv)

/-- GSTATUS.TX_FAILED: 1 iff `phase_tx = FAILED` (R16). -/
def txFailed (s : State) : Bool := decide (s.phaseTx = .failed)

/-- GSTATUS.RX_FAILED: 1 iff `phase_rx = FAILED` (R16). -/
def rxFailed (s : State) : Bool := decide (s.phaseRx = .failed)

/-- One flag as the bit at place `i` of a 16-bit location. -/
def flagBit (f : Bool) (i : Nat) : Word := (BitVec.ofBool f).zeroExtend 16 <<< i

/-- The value of GSTATUS, as 43_control.md R85 assembles it; bits [15:7] are 0. -/
def gstatus (s : State) : Word :=
  (s.opErr.code.zeroExtend 16 <<< 4) ||| flagBit (rxFailed s) 3 ||| flagBit (txFailed s) 2 |||
    flagBit (rxBusy s) 1 ||| flagBit (txBusy s) 0

end Sys2Proof.Machine
end

