-- ==== Sys2Proof/Machine/Ops.lean ====
section
/-! DEFINITION. The named operations over the buffers, the registers and the channels: reading and writing a buffer
byte, reporting an error (`raise`, FCODEC's one form of exception), accepting or rejecting an operation, resetting
the registers, emitting a byte, and what the environment does to the channels. -/

namespace Sys2Proof.Machine

/-! ### The buffers -/

/-- The byte written at address `a` since power-on, if any. -/
def Memory.lookup : Memory → Nat → Option Byte
  | [], _ => none
  | (k, b) :: m, a => if a = k then some b else Memory.lookup m a

/-- The byte at address `a` when the bytes held at power-on are `p` (70_reset_and_hazards.md R103). -/
def Memory.readWith (p : Nat → Byte) (m : Memory) (a : Nat) : Byte := (Memory.lookup m a).getD (p a)

/-- Read the byte at address `a`: the byte last written there, or its unspecified power-on byte (log 1). -/
def Memory.read (m : Memory) (a : Nat) : Byte := Memory.readWith Config.powerOnByte m a

/-- Write the byte `b` at address `a`, keeping the addresses strictly rising. -/
def Memory.write : Memory → Nat → Byte → Memory
  | [], a, b => [(a, b)]
  | (k, c) :: m, a, b =>
    if a < k then (a, b) :: (k, c) :: m
    else if a = k then (a, b) :: m
    else (k, c) :: Memory.write m a b

/-- Write the bytes `bs` at consecutive addresses from `a` up. -/
def Memory.writeBytes : Memory → Nat → List Byte → Memory
  | m, _, [] => m
  | m, a, b :: bs => Memory.writeBytes (Memory.write m a b) (a + 1) bs

/-- The `n` bytes at consecutive addresses from `a` up. -/
def Memory.readBytes (m : Memory) (a n : Nat) : List Byte := (List.range n).map fun i => Memory.read m (a + i)

/-- The canonical form: addresses strictly rising, so none is listed twice. An unlisted address has no byte stored,
so no entry can equal what an unlisted address holds (log 2). -/
abbrev Memory.wf (m : Memory) : Prop := m.Pairwise fun x y => x.1 < y.1

/-- TXP[i] (00_scope.md R8). -/
def txp (s : State) (i : Nat) : Byte := Memory.read s.mem (Config.txParamBase + i)

/-- TXF[i] (00_scope.md R8). -/
def txf (s : State) (i : Nat) : Byte := Memory.read s.mem (Config.txFrameBase + i)

/-- RXF[i] (00_scope.md R8). -/
def rxf (s : State) (i : Nat) : Byte := Memory.read s.mem (Config.rxFrameBase + i)

/-- `TXP[i] <- b`, `RXF[i] <- b`: one buffer byte, by its address. -/
def State.storeByte (s : State) (a : Nat) (b : Byte) : State := { s with mem := Memory.write s.mem a b }

/-! ### Reporting an error -/

/-- GSTATUS.OPERR <- e (43_control.md R87). -/
def State.setOpErr (s : State) (e : OpErr) : State := { s with opErr := e }

/-- `raise E`: the status register of the engine the operation or step belongs to takes the code of E
(60_exceptions.md R91). Nothing else is saved and no control is transferred (R94); there is no return (R95). -/
def raise (g : Engine) (e : ErrorKind) (s : State) : State :=
  match g with
  | .tx => { s with txStatus := e.status }
  | .rx => { s with rxStatus := e.status }

/-! ### Accepting an operation -/

/-- A TX operation is accepted only while `phase_tx = IDLE`; rejected, it changes OPERR alone (43_control.md R87). -/
def acceptTx (s : State) (op : State → Result) : Result :=
  match s.phaseTx with
  | .send => .next (s.setOpErr .engineBusy)
  | .failed => .next (s.setOpErr .engineFailed)
  | .idle => op (s.setOpErr .accepted)

/-- An RX operation is accepted only while `phase_rx = IDLE`; rejected, it changes OPERR alone (43_control.md R87). -/
def acceptRx (s : State) (op : State → Result) : Result :=
  match s.phaseRx with
  | .recv => .next (s.setOpErr .engineBusy)
  | .failed => .next (s.setOpErr .engineFailed)
  | .idle => op (s.setOpErr .accepted)

/-! ### Reset -/

/-- `Reset()` (70_reset_and_hazards.md R102): every register to its reset value, both phases IDLE, `rx_need <- 3`.
It changes no buffer and neither channel. The agenda and the record of host reads are the model's own and stay. -/
def resetRegisters (s : State) : State :=
  { State.reset with
    mem := s.mem, rxIn := s.rxIn, rxInEnded := s.rxInEnded, out := s.out, txAnswers := s.txAnswers,
    agenda := s.agenda, hostReads := s.hostReads }

/-! ### The channels -/

/-- `emit(b)`: `out <- out ++ [b]` (20_memory.md R48). -/
def State.emit (s : State) (b : Byte) : State := { s with out := s.out ++ [b] }

/-- `Closed` or `Error`, after which the input channel delivers nothing more (20_memory.md R47). -/
def RxEvent.ending : RxEvent → Bool
  | .byte _ => false
  | .closed => true
  | .error => true

/-- The input channel offers one more event. After `Closed` or `Error` it delivers nothing more, so an event offered
behind one is lost (20_memory.md R47; log 6). -/
def offerEvent (e : RxEvent) (s : State) : State :=
  if s.rxInEnded || s.rxIn.any RxEvent.ending then s else { s with rxIn := s.rxIn ++ [e] }

/-- The output channel answers one more offered byte (20_memory.md R48; log 7). -/
def queueAnswer (r : TxAnswer) (s : State) : State := { s with txAnswers := s.txAnswers ++ [r] }

end Sys2Proof.Machine
end

