-- ==== Sys2Proof/Machine/Operands.lean ====
section
/-! DEFINITION. The operand forms of FCODEC (30_encoding.md R62): the TX operands of ENCODE and CHECKSUM, the frame
image TRANSMIT sends, and the byte buffer DECODE and the receive engine decode. -/

namespace Sys2Proof.Machine

/-- P = TX_PLEN, as a number (10_state.md R20). -/
def plen (s : State) : Nat := s.txPlen.toNat

/-- The TX operand `[TXP[0], .., TXP[P-1]]` (40_frame_codec.md R70, 41_checksum.md R76). -/
def txParams (s : State) : List Byte := Memory.readBytes s.mem Config.txParamBase (plen s)

/-- The frame image `TXF[0 .. TX_FLEN)` (42_transport_framing.md R77, R79). -/
def txImage (s : State) : List Byte := Memory.readBytes s.mem Config.txFrameBase s.txFlen.toNat

/-- The buffer `[RXF[0], .., RXF[n-1]]` (40_frame_codec.md R71, 42_transport_framing.md R81). -/
def rxBuffer (s : State) (n : Nat) : List Byte := Memory.readBytes s.mem Config.rxFrameBase n

/-- v[7:0] of a host write (43_control.md R86). -/
def lowByte (v : Word) : Byte := v.extractLsb' 0 8

/-- v[8:0] of a host write (43_control.md R86). -/
def lowCount (v : Word) : Count := v.extractLsb' 0 9

/-- `min(v[8:0], 259)`: what a host write stores in RX_NBYTES (10_state.md R24). -/
def clampCount (v : Word) : Count :=
  if Config.maxFrame < (lowCount v).toNat then BitVec.ofNat 9 Config.maxFrame else lowCount v

end Sys2Proof.Machine
end

