-- ==== Sys2Proof/Machine/Codec.lean ====
section
/-! DEFINITION. ENCODE, CHECKSUM and DECODE (40_frame_codec.md R69 to R71, 41_checksum.md R76). Each completes inside
the write to OP that starts it. -/

namespace Sys2Proof.Machine

/-- ENCODE and its failure: TX_FLEN <- 0, then raise PARAMS_TOO_LONG (40_frame_codec.md R70). -/
def encodeTooLong (s : State) : State := raise .tx .paramsTooLong { s with txFlen := 0#9 }

/-- The pseudocode of ENCODE (40_frame_codec.md R70). -/
def encodeOp (s : State) : Result :=
  if Config.maxParams < plen s then .next (encodeTooLong s)
  else
    match encodeFrame s.txCmd s.txCtrl (txParams s) with
    | .error _ => .next (encodeTooLong s)
    | .ok r =>
      .next { s with
        mem := Memory.writeBytes s.mem Config.txFrameBase r
        txFlen := BitVec.ofNat 9 (6 + plen s)
        txCsum := byteAt r (5 + plen s)
        txStatus := .ok }

/-- ENCODE (40_frame_codec.md R70). -/
def execEncode (s : State) : Result := acceptTx s encodeOp

/-- The pseudocode of CHECKSUM (41_checksum.md R76). -/
def checksumOp (s : State) : Result :=
  if Config.maxParams < plen s then .next (raise .tx .paramsTooLong s)
  else .next { s with txCsum := checksum s.txCmd s.txCtrl (txParams s), txStatus := .ok }

/-- CHECKSUM (41_checksum.md R76). -/
def execChecksum (s : State) : Result := acceptTx s checksumOp

/-- No Message is exposed: the message registers, the checksum bytes and RX_VALID read 0 (10_state.md R26 to R28). -/
def clearMessage (s : State) : State :=
  { s with
    rxLen := 0#8, rxCmd := 0#8, rxCtrl := 0#8, rxPlen := 0#8, rxCsumExp := 0#8, rxCsumRcv := 0#8, rxValid := false }

/-- `Publish(r)` (40_frame_codec.md R69). -/
def publish (r : Except DecodeFailure Message) (s : State) : State :=
  match r with
  | .ok m =>
    { s with
      rxLen := m.length, rxCmd := m.commandId, rxCtrl := m.control, rxPlen := m.length - 2#8
      rxCsumExp := m.checksum, rxCsumRcv := m.checksum, rxValid := true, rxStatus := .ok }
  | .error (.integrityMismatch e c) =>
    raise .rx .integrityMismatch { clearMessage s with rxCsumExp := e, rxCsumRcv := c }
  | .error .truncated => raise .rx .truncated (clearMessage s)
  | .error .badHeader => raise .rx .badHeader (clearMessage s)
  | .error .badLength => raise .rx .badLength (clearMessage s)

/-- The pseudocode of DECODE (40_frame_codec.md R71). RX_NBYTES is 0 to 259 (10_state.md R24): above, RX_FRAME has no
such bytes and the model faults (log 8). -/
def decodeOp (s : State) : Result :=
  if Config.maxFrame < s.rxNbytes.toNat then .fault .rxFrameIndex
  else .next (publish (decodeFrame (rxBuffer s s.rxNbytes.toNat)) s)

/-- DECODE (40_frame_codec.md R71). -/
def execDecode (s : State) : Result := acceptRx s decodeOp

end Sys2Proof.Machine
end

