-- ==== Sys2Proof/Machine/Control.lean ====
section
/-! DEFINITION. The operations of neither engine, NOP and RESET (43_control.md R88, R89). Both are always accepted. -/

namespace Sys2Proof.Machine

/-- NOP: OPERR <- 0 and nothing else (43_control.md R87, R88). -/
def execNop (s : State) : Result := .next (s.setOpErr .accepted)

/-- RESET: `Reset()`, then OPERR <- 0 (43_control.md R87, R89). Buffers and channels are kept. -/
def execReset (s : State) : Result := .next ((resetRegisters s).setOpErr .accepted)

end Sys2Proof.Machine
end

