-- ==== Sys2Proof/Machine/Framing.lean ====
section
/-! DEFINITION. TRANSMIT, RECEIVE and the steps of the two engines (42_transport_framing.md R77 to R82). -/

namespace Sys2Proof.Machine

/-! ### Transmit -/

/-- The pseudocode of TRANSMIT (42_transport_framing.md R77). -/
def transmitOp (s : State) : Result :=
  if s.txFlen = 0#9 then .next { s with txSent := 0#9, txStatus := .ok }
  else .next { s with txSent := 0#9, phaseTx := .send, txStatus := .inProgress }

/-- TRANSMIT (42_transport_framing.md R77). -/
def execTransmit (s : State) : Result := acceptTx s transmitOp

/-- TX_STEP(Accept) with the offered byte b (42_transport_framing.md R78). -/
def txAccepted (b : Byte) (s : State) : State :=
  let t := { s.emit b with txSent := s.txSent + 1#9 }
  if t.txSent = t.txFlen then { t with phaseTx := .idle, txStatus := .ok } else t

/-- TX_STEP(Error) (42_transport_framing.md R78). -/
def txErrored (s : State) : State := raise .tx .transportFailure { s with phaseTx := .failed }

/-- TX_STEP(answer): offer TXF[TX_SENT] and take the channel's answer (42_transport_framing.md R78). -/
def txTake (r : TxAnswer) (s : State) : Result :=
  if Config.maxFrame ≤ s.txSent.toNat then .fault .txFrameIndex
  else
    match r with
    | .accept => .next (txAccepted (txf s s.txSent.toNat) s)
    | .error => .next (txErrored s)

/-- One step of the transmit engine: enabled iff `phase_tx = SEND` and the channel has answered; otherwise it holds
(42_transport_framing.md R78, 93_implementation_defined.md I5; log 4). -/
def txStep (s : State) : Result :=
  match s.phaseTx, s.txAnswers with
  | .send, r :: rest => txTake r { s with txAnswers := rest }
  | .send, [] => .next s
  | .idle, _ => .next s
  | .failed, _ => .next s

/-! ### Receive -/

/-- The pseudocode of RECEIVE (42_transport_framing.md R80). -/
def receiveOp (s : State) : Result :=
  .next { clearMessage s with rxCount := 0#9, rxNeed := 3#9, phaseRx := .recv, rxStatus := .inProgress }

/-- RECEIVE (42_transport_framing.md R80). -/
def execReceive (s : State) : Result := acceptRx s receiveOp

/-- After the length byte L the engine needs `zext_9(L) + 4` bytes in all (42_transport_framing.md R81). -/
def needAfter (b : Byte) (count need : Count) : Count := if count = 3#9 then b.zeroExtend 9 + 4#9 else need

/-- RX_STEP(Byte(b)) once the byte is stored and counted: at the last byte of the frame the engine goes to IDLE and
publishes the decode (42_transport_framing.md R81). -/
def rxFinish (s : State) : State :=
  if s.rxCount = s.rxNeed then
    publish (decodeFrame (rxBuffer s s.rxCount.toNat)) { s with rxNbytes := s.rxCount, phaseRx := .idle }
  else s

/-- The byte taken stands in RXF[RX_COUNT] and is counted (42_transport_framing.md R81). -/
def rxStored (b : Byte) (s : State) : State :=
  { s.storeByte (Config.rxFrameBase + s.rxCount.toNat) b with
    rxCount := s.rxCount + 1#9
    rxNeed := needAfter b (s.rxCount + 1#9) s.rxNeed }

/-- RX_STEP(Byte(b)) (42_transport_framing.md R81). -/
def rxTakeByte (b : Byte) (s : State) : Result :=
  if Config.maxFrame ≤ s.rxCount.toNat then .fault .rxFrameIndex else .next (rxFinish (rxStored b s))

/-- RX_STEP(Closed) and RX_STEP(Error), which are not told apart (42_transport_framing.md R82). The channel delivers
nothing more (20_memory.md R47; log 6). -/
def rxTakeEnd (s : State) : Result :=
  .next (raise .rx .transportFailure
    { s with rxIn := [], rxInEnded := true, rxNbytes := s.rxCount, phaseRx := .failed })

/-- RX_STEP(e): take the event `e`, whose successors in the channel are `rest`. -/
def rxTake (e : RxEvent) (rest : List RxEvent) (s : State) : Result :=
  match e with
  | .byte b => rxTakeByte b { s with rxIn := rest }
  | .closed => rxTakeEnd s
  | .error => rxTakeEnd s

/-- One step of the receive engine: enabled iff `phase_rx = RECV` and the input channel delivers an event; otherwise
the event stays in the channel and the engine holds (20_memory.md R47, 93_implementation_defined.md I5; log 4). -/
def rxStep (s : State) : Result :=
  match s.phaseRx, s.rxInEnded, s.rxIn with
  | .recv, false, e :: rest => rxTake e rest s
  | .recv, false, [] => .next s
  | .recv, true, _ => .next s
  | .idle, _, _ => .next s
  | .failed, _, _ => .next s

end Sys2Proof.Machine
end

