-- ==== Sys2Proof/Machine/Dispatch.lean ====
section
/-! DEFINITION. The meaning of every operation: what a host write of its word to OP does (43_control.md R87). -/

namespace Sys2Proof.Machine

def exec (i : Instr) (s : State) : Host.Outcome State Fault Refusal :=
  match i with
  | .nop => Sys2Proof.Machine.execNop s
  | .encode => Sys2Proof.Machine.execEncode s
  | .transmit => Sys2Proof.Machine.execTransmit s
  | .checksum => Sys2Proof.Machine.execChecksum s
  | .receive => Sys2Proof.Machine.execReceive s
  | .decode => Sys2Proof.Machine.execDecode s
  | .reset => Sys2Proof.Machine.execReset s

end Sys2Proof.Machine
end

