-- ==== Sys2Proof/Machine/Bus.lean ====
section
/-! DEFINITION. The host bus: what a read returns (43_control.md R85), what a write does (R86), how a write to OP
starts an operation (R87); and what each agent's step does. -/

namespace Sys2Proof.Machine

/-- What a read of a register returns (43_control.md R85): its field bits, every other bit 0 (10_state.md R13). -/
def readReg (r : Reg) (s : State) : Word :=
  match r with
  | .op => 0x0000#16
  | .gstatus => gstatus s
  | .txStatus => s.txStatus.code.zeroExtend 16
  | .rxStatus => s.rxStatus.code.zeroExtend 16
  | .txCmd => s.txCmd.zeroExtend 16
  | .txCtrl => s.txCtrl.zeroExtend 16
  | .txPlen => s.txPlen.zeroExtend 16
  | .txCsum => s.txCsum.zeroExtend 16
  | .txFlen => s.txFlen.zeroExtend 16
  | .txSent => s.txSent.zeroExtend 16
  | .rxNbytes => s.rxNbytes.zeroExtend 16
  | .rxCount => s.rxCount.zeroExtend 16
  | .rxLen => s.rxLen.zeroExtend 16
  | .rxCmd => s.rxCmd.zeroExtend 16
  | .rxCtrl => s.rxCtrl.zeroExtend 16
  | .rxPlen => s.rxPlen.zeroExtend 16
  | .rxCsumExp => s.rxCsumExp.zeroExtend 16
  | .rxCsumRcv => s.rxCsumRcv.zeroExtend 16
  | .rxValid => (BitVec.ofBool s.rxValid).zeroExtend 16

/-- `MemRead(a, 1)` (43_control.md R85). It returns a value and changes nothing (20_memory.md R42). -/
def memRead (a : Addr) (s : State) : Word :=
  match locate a with
  | .reg r => readReg r s
  | .txParam i => (txp s i).zeroExtend 16
  | .txFrame i => (txf s i).zeroExtend 16
  | .rxFrame i => (rxf s i).zeroExtend 16
  | .reserved => 0x0000#16

/-- `Dispatch(v)`: an illegal word sets OPERR <- 1 and has no other effect; a legal one runs its operation, which the
operation's own meaning accepts or rejects (43_control.md R87). -/
def dispatchWord (v : Word) (s : State) : Result :=
  match decode v with
  | .ok i => exec i s
  | .error _ => .next (s.setOpErr .illegalOp)

/-- A host write of v to a register (43_control.md R86): OP starts an operation, a RW register stores its field bits,
RX_NBYTES is taken only while `phase_rx = IDLE`, and a write to any other register is ignored. -/
def writeReg (r : Reg) (v : Word) (s : State) : Result :=
  match r with
  | .op => dispatchWord v s
  | .txCmd => .next { s with txCmd := lowByte v }
  | .txCtrl => .next { s with txCtrl := lowByte v }
  | .txPlen => .next { s with txPlen := lowByte v }
  | .rxNbytes => if s.phaseRx = .idle then .next { s with rxNbytes := clampCount v } else .next s
  | .gstatus | .txStatus | .rxStatus | .txCsum | .txFlen | .txSent | .rxCount | .rxLen | .rxCmd | .rxCtrl | .rxPlen
  | .rxCsumExp | .rxCsumRcv | .rxValid => .next s

/-- `MemWrite(a, 1, v)` (43_control.md R86). -/
def memWrite (a : Addr) (v : Word) (s : State) : Result :=
  match locate a with
  | .reg r => writeReg r v s
  | .txParam i => .next (s.storeByte (Config.txParamBase + i) (lowByte v))
  | .txFrame _ => .next s
  | .rxFrame i =>
    if s.phaseRx = .idle then .next (s.storeByte (Config.rxFrameBase + i) (lowByte v)) else .next s
  | .reserved => .next s

/-- A host read and the value the host sees (00_scope.md R10; log 9). -/
def hostReadStep (a : Addr) (s : State) : State := { s with hostReads := s.hostReads ++ [memRead a s] }

/-- What one step of one agent does (00_scope.md R5, R9). -/
def perform (x : Action) (s : State) : Result :=
  match x with
  | .hostRead a => .next (hostReadStep a s)
  | .hostWrite a v => memWrite a v s
  | .txStep => txStep s
  | .rxStep => rxStep s
  | .offer e => .next (offerEvent e s)
  | .answer r => .next (queueAnswer r s)

/-- The agenda with a host write of an operation word to OP put first. -/
def State.withOpWrite (s : State) (v : Word) : State := { s with agenda := .hostWrite Reg.op.addr v :: s.agenda }

end Sys2Proof.Machine
end

