-- ==== Sys2Proof/Machine/Step.lean ====
section
/-! DEFINITION. One step of the model: the agent the agenda names next acts, atomically (00_scope.md R9, 20_memory.md
R43, R50). The agenda is a list in State, so a statement over all states holds for every interleaving (log 3). -/

namespace Sys2Proof.Machine

/-- One step. With nothing on the agenda no agent acts and the state stays (log 3). -/
def step (s : State) : Host.Outcome State Fault Refusal :=
  match s.agenda with
  | [] => .next s
  | x :: rest => perform x { s with agenda := rest }

/-- `s` with the operation word `w` standing where step takes its next operation word: as the host's next write to
OP. FCODEC fetches no instructions (20_memory.md R52; log 5). -/
def State.withFetchWord (s : State) (nbits w : Nat) : State := s.withOpWrite (wordOfTable nbits w)

end Sys2Proof.Machine
end

