-- ==== Sys2Proof/Safety.lean ====
section
/-! DEFINITION. The terms claims are stated in: a step that goes on, the relations between the fields of State that
the rules keep, what a decode publishes, a frame under way, and the two sides of FCODEC. -/

namespace Sys2Proof.Machine

/-- The step goes on: it is neither a fault nor a refusal (60_exceptions.md R94: FCODEC has no trap). -/
def Continues (r : Result) : Prop := ∃ t, r = .next t

/-- The input channel delivers nothing after `Closed` or `Error` (20_memory.md R47). -/
def channelClosedLast : List RxEvent → Bool
  | [] => true
  | e :: rest => (!e.ending || rest.isEmpty) && channelClosedLast rest

/-- What the rules keep on the transmit side, whatever the host and the environment do. -/
structure LegalTx (s : State) : Prop where
  /-- TX_FLEN is 0 or 6 to 259 (10_state.md R22). -/
  flen : s.txFlen.toNat = 0 ∨ (6 ≤ s.txFlen.toNat ∧ s.txFlen.toNat ≤ 259)
  /-- TX_SENT never passes 259 (10_state.md R35). -/
  sent : s.txSent.toNat ≤ 259
  /-- While a TRANSMIT runs, or has failed, a byte is still to be sent (10_state.md R23, R33). -/
  running : s.phaseTx ≠ .idle → s.txSent.toNat < s.txFlen.toNat
  /-- TX_STATUS is IN_PROGRESS exactly while the engine is busy (10_state.md R17). -/
  in_progress : s.txStatus = .inProgress ↔ s.phaseTx = .send
  /-- TX_STATUS is TRANSPORT_FAILURE exactly while the engine is FAILED (60_exceptions.md R92, R95). -/
  failure : s.txStatus = .transportFailure ↔ s.phaseTx = .failed
  /-- The codes written to TX_STATUS (60_exceptions.md R90). -/
  codes : s.txStatus ∈ [StatusCode.ok, .paramsTooLong, .transportFailure, .inProgress, .none]

/-- What the rules keep on the receive side, whatever the host and the environment do. -/
structure LegalRx (s : State) : Prop where
  /-- RX_NBYTES is 0 to 259 (10_state.md R24). -/
  nbytes : s.rxNbytes.toNat ≤ 259
  /-- RX_COUNT is 0 to 259 (10_state.md R25). -/
  count : s.rxCount.toNat ≤ 259
  /-- `rx_need` is 3 until the length byte has been taken, `L + 4` after (10_state.md R34). -/
  need : (s.rxCount.toNat < 3 → s.rxNeed = 3#9) ∧
    (3 ≤ s.rxCount.toNat → 4 ≤ s.rxNeed.toNat ∧ s.rxNeed.toNat ≤ 259)
  /-- While a RECEIVE runs, or has failed, a byte is still to come, and the length byte that set `rx_need` is RXF[2]
  (42_transport_framing.md R81). -/
  running : s.phaseRx ≠ .idle → s.rxCount.toNat < s.rxNeed.toNat ∧
    (3 ≤ s.rxCount.toNat → s.rxNeed.toNat = (rxf s 2).toNat + 4)
  /-- RX_STATUS is IN_PROGRESS exactly while the engine is busy (10_state.md R17). -/
  in_progress : s.rxStatus = .inProgress ↔ s.phaseRx = .recv
  /-- RX_STATUS is TRANSPORT_FAILURE exactly while the engine is FAILED (60_exceptions.md R92, R95). -/
  failure : s.rxStatus = .transportFailure ↔ s.phaseRx = .failed
  /-- After a channel failure RX_NBYTES is the bytes taken (60_exceptions.md R92). -/
  failed_nbytes : s.phaseRx = .failed → s.rxNbytes = s.rxCount
  /-- The codes written to RX_STATUS (60_exceptions.md R90). -/
  codes : s.rxStatus ∈ [StatusCode.ok, .truncated, .integrityMismatch, .transportFailure, .badHeader, .badLength,
    .inProgress, .none]
  /-- RX_VALID is 1 iff the last decode succeeded and nothing has started since (10_state.md R28). -/
  valid : s.rxValid = true ↔ s.rxStatus = .ok
  /-- With no valid Message the message registers hold 0 (10_state.md R26). -/
  hidden : s.rxValid = false → s.rxLen = 0#8 ∧ s.rxCmd = 0#8 ∧ s.rxCtrl = 0#8 ∧ s.rxPlen = 0#8
  /-- A valid Message has length `P + 2`, P <= 253, and a matching checksum (10_state.md R26, R27). -/
  message : s.rxValid = true → s.rxLen.toNat = s.rxPlen.toNat + 2 ∧ s.rxCsumExp = s.rxCsumRcv
  /-- After an INTEGRITY_MISMATCH the two checksum bytes differ (10_state.md R27). -/
  mismatch : s.rxStatus = .integrityMismatch → s.rxCsumExp ≠ s.rxCsumRcv
  /-- After any other outcome than OK or INTEGRITY_MISMATCH the checksum bytes hold 0 (10_state.md R27). -/
  checksums : s.rxStatus ≠ .ok → s.rxStatus ≠ .integrityMismatch → s.rxCsumExp = 0#8 ∧ s.rxCsumRcv = 0#8

/-- What holds in every state a run reaches, whatever the host and the environment do. -/
structure State.Legal (s : State) : Prop where
  /-- The buffers keep their canonical form (log 2). -/
  mem_wf : Memory.wf s.mem
  /-- Only buffer locations hold bytes (20_memory.md R38). -/
  mem_mapped : ∀ c ∈ s.mem, isBufferAddr c.1 = true
  /-- The transmit side. -/
  tx : LegalTx s
  /-- The receive side. -/
  rx : LegalRx s
  /-- Nothing follows `Closed` or `Error` in the input channel, and nothing is left once one was taken (R47). -/
  channel : channelClosedLast s.rxIn = true ∧ (s.rxInEnded = true → s.rxIn = [])

/-- The frame image is a well-formed frame whenever there is one (10_state.md R22, R31, 40_frame_codec.md R70). -/
def TxImageIsFrame (s : State) : Prop := s.txFlen ≠ 0#9 → ∃ m, decodeFrame (txImage s) = .ok m

/-- The operations of the transmit engine (30_encoding.md R62). -/
def txOperations : List Instr := [.encode, .transmit, .checksum]

/-- The operations of the receive engine (30_encoding.md R62). -/
def rxOperations : List Instr := [.receive, .decode]

/-- The reset column of 10_state.md R12, as a host read returns it. -/
def resetValue (r : Reg) : Word := if r = .txStatus ∨ r = .rxStatus then 0x000F#16 else 0x0000#16

/-- No Message is exposed (10_state.md R26, R28). -/
def NoMessage (t : State) : Prop :=
  t.rxLen = 0#8 ∧ t.rxCmd = 0#8 ∧ t.rxCtrl = 0#8 ∧ t.rxPlen = 0#8 ∧ t.rxValid = false

/-- What the receive-side registers hold once the result `r` of a decode is published (40_frame_codec.md R69). -/
def Published (r : Except DecodeFailure Message) (t : State) : Prop :=
  match r with
  | .ok m =>
    t.rxLen = m.length ∧ t.rxCmd = m.commandId ∧ t.rxCtrl = m.control ∧ t.rxPlen = m.length - 2#8 ∧
      t.rxCsumExp = m.checksum ∧ t.rxCsumRcv = m.checksum ∧ t.rxValid = true ∧ t.rxStatus = .ok
  | .error (.integrityMismatch e c) =>
    NoMessage t ∧ t.rxCsumExp = e ∧ t.rxCsumRcv = c ∧ t.rxStatus = .integrityMismatch
  | .error .truncated => NoMessage t ∧ t.rxCsumExp = 0#8 ∧ t.rxCsumRcv = 0#8 ∧ t.rxStatus = .truncated
  | .error .badHeader => NoMessage t ∧ t.rxCsumExp = 0#8 ∧ t.rxCsumRcv = 0#8 ∧ t.rxStatus = .badHeader
  | .error .badLength => NoMessage t ∧ t.rxCsumExp = 0#8 ∧ t.rxCsumRcv = 0#8 ∧ t.rxStatus = .badLength

/-- `t` with the registers that publishing writes put back to what they are in `s`: what publishing leaves alone. -/
def withMessageOf (s t : State) : State :=
  { t with
    rxLen := s.rxLen, rxCmd := s.rxCmd, rxCtrl := s.rxCtrl, rxPlen := s.rxPlen, rxCsumExp := s.rxCsumExp,
    rxCsumRcv := s.rxCsumRcv, rxValid := s.rxValid, rxStatus := s.rxStatus }

/-- A TRANSMIT is under way: `out` was `o` when it started, and has grown by TXF[0 .. TX_SENT). -/
def Sending (o : List Byte) (s : State) : Prop :=
  s.phaseTx = .send ∧ s.out = o ++ (txImage s).take s.txSent.toNat

/-- A RECEIVE is under way: it has taken the bytes `bs`, and they stand in RXF[0 .. RX_COUNT). -/
def Receiving (bs : List Byte) (s : State) : Prop :=
  s.phaseRx = .recv ∧ s.rxCount.toNat = bs.length ∧ rxBuffer s bs.length = bs

/-- `s` with the receive side of `r`: its registers, its engine and the input channel. -/
def withRxSide (s r : State) : State :=
  { s with
    rxStatus := r.rxStatus, rxNbytes := r.rxNbytes, rxCount := r.rxCount, rxLen := r.rxLen, rxCmd := r.rxCmd,
    rxCtrl := r.rxCtrl, rxPlen := r.rxPlen, rxCsumExp := r.rxCsumExp, rxCsumRcv := r.rxCsumRcv, rxValid := r.rxValid,
    phaseRx := r.phaseRx, rxNeed := r.rxNeed, rxIn := r.rxIn, rxInEnded := r.rxInEnded }

/-- `s` with the transmit side of `r`: its registers, its engine and the output channel. -/
def withTxSide (s r : State) : State :=
  { s with
    txStatus := r.txStatus, txCmd := r.txCmd, txCtrl := r.txCtrl, txPlen := r.txPlen, txCsum := r.txCsum,
    txFlen := r.txFlen, txSent := r.txSent, phaseTx := r.phaseTx, out := r.out, txAnswers := r.txAnswers }

/-- `s` about to take the given steps. -/
def State.scheduled (s : State) (xs : List Action) : State := { s with agenda := xs }

/-- The bytes `bs` as events of the input channel. -/
def asEvents (bs : List Byte) : List RxEvent := bs.map RxEvent.byte

end Sys2Proof.Machine
end

