-- ==== Sys2Proof/WellFormed.lean ====
section
/-! DEFINITION. Which operation words are legal (30_encoding.md R61 to R63), written from the table of codes and
independently of the decoder, and the well-formedness of an operation as syntax. -/

namespace Sys2Proof

/-- Check 1 of R63: bits [15:4] are 0. -/
def mbzClear (v : Word) : Bool := v.toNat / 16 == 0

/-- Check 2 of R63: OPCODE is one of the codes of R62. -/
def opcodeAssigned (v : Word) : Bool := [0x0, 0x1, 0x2, 0x3, 0x4, 0x5, 0xF].contains (v.toNat % 16)

/-- An operation word is legal iff both checks pass (R63). -/
def wellFormedWord (v : Word) : Bool := mbzClear v && opcodeAssigned v

/-- An operation is well formed as syntax: no operation has an operand field (R61), so there is nothing to check. -/
def Instr.wellFormed : Instr → Bool
  | .nop => true
  | .encode => true
  | .transmit => true
  | .checksum => true
  | .receive => true
  | .decode => true
  | .reset => true

end Sys2Proof
end

