-- ==== Sys2Proof/Certificates/Slice0/Obligations.lean ====
section
/-! DEFINITION. The statements for the provers. Each docstring names the rule of spec/ it formalises; a statement that
rests on a choice of the model's own says so and names the log entry. -/

open Sys2Proof Sys2Proof.Machine

/-! ### Reset and the machine as a whole -/

/-- 70_reset_and_hazards.md R102: power-on reset and the RESET operation give every register its reset value, both
engines IDLE and `rx_need = 3`; power-on also starts with `out = []`; RESET, from any state, changes no buffer and
neither channel (nor, in this model, the agenda and the record of host reads, log 3 and log 9). -/
def Obligations.ResetGivesTheResetState : Prop :=
  ((∀ r : Reg, memRead r.addr State.reset = resetValue r) ∧
    State.reset.phaseTx = .idle ∧ State.reset.phaseRx = .idle ∧ State.reset.rxNeed = 3#9 ∧ State.reset.out = []) ∧
  decode 0x000F#16 = .ok .reset ∧
  ∀ s : State, ∃ t, exec .reset s = .next t ∧
    (∀ r : Reg, memRead r.addr t = resetValue r) ∧
    t.phaseTx = .idle ∧ t.phaseRx = .idle ∧ t.rxNeed = 3#9 ∧
    t.mem = s.mem ∧ t.rxIn = s.rxIn ∧ t.rxInEnded = s.rxInEnded ∧ t.out = s.out ∧ t.txAnswers = s.txAnswers ∧
    t.agenda = s.agenda ∧ t.hostReads = s.hostReads

/-- The state after power-on reset is legal (10_state.md R12, R33, R34), and TX_FRAME holds no frame. That the memory's
list is empty and that the channels are empty and open then are the model's choices (log 2, log 12). -/
def Obligations.PowerOnStateIsLegal : Prop := State.reset.Legal ∧ TxImageIsFrame State.reset

/-- Whatever agent acts, a step from a legal state leads to a legal state: the ranges of the counts, the relations
between phases, status codes, message registers and `rx_need`, and the form of the memory and the channel hold on. Of
what it concludes, that the memory's list keeps its canonical form is the model's choice (log 2), and that an ended
input channel is empty from then on is the model's reading of 20_memory.md R47 (log 6, unsafe). -/
def Obligations.EveryStepKeepsTheStateLegal : Prop :=
  ∀ s t : State, s.Legal → step s = .next t → t.Legal

/-- No step of any agent leaves TX_FRAME[0 .. TX_FLEN), when TX_FLEN is not 0, anything but a frame that decodes
(10_state.md R22, R31, 40_frame_codec.md R70). -/
def Obligations.EveryStepKeepsTheImageAFrame : Prop :=
  ∀ s t : State, TxImageIsFrame s → step s = .next t → TxImageIsFrame t

/-- FCODEC has no trap (60_exceptions.md R94): a legal state's step always answers a next state. The faults it rules
out are the model's own (log 8). -/
def Obligations.LegalStepsContinue : Prop := ∀ s : State, s.Legal → Continues (step s)

/-- From power-on, no sequence of host transactions, engine steps and channel events, of any length, stops the
machine, and it ends in a legal state whose TX_FRAME image is a frame or absent. It is a statement about runs, whose
step lemmas are EveryStepKeepsTheStateLegal, EveryStepKeepsTheImageAFrame and LegalStepsContinue. It rests on the
model's choices: the faults it rules out are the model's own (log 8), the sequence of steps is the agenda (log 3), the
channels are empty at power-on (log 12), and a legal state has the model's form of memory (log 2) and its reading of an
ended input channel (log 6). -/
def Obligations.NoScheduleStopsTheMachine : Prop :=
  ∀ (xs : List Action) (k : Nat), ∃ t : State,
    Host.Core.run core k (State.reset.scheduled xs) = .next t ∧ t.Legal ∧ TxImageIsFrame t

/-! ### Operation words -/

/-- A host write of a legal word to OP runs the operation it decodes to, on the state whose agenda is moved on. -/
def Obligations.StepRunsTheDecodedOperation : Prop :=
  ∀ (s : State) (v : Word) (i : Instr) (rest : List Action),
    s.agenda = .hostWrite 0x000#12 v :: rest → decode v = .ok i → i.wellFormed = true →
      step s = exec i { s with agenda := rest }

/-- The operation codes of 30_encoding.md R62, as the words written to OP. -/
def Obligations.OperationWordsDecode : Prop :=
  decode 0x0000#16 = .ok .nop ∧ decode 0x0001#16 = .ok .encode ∧ decode 0x0002#16 = .ok .transmit ∧
    decode 0x0003#16 = .ok .checksum ∧ decode 0x0004#16 = .ok .receive ∧ decode 0x0005#16 = .ok .decode ∧
    decode 0x000F#16 = .ok .reset

/-- 30_encoding.md R61 to R63: the words that decode are the legal ones, each decodes to one operation whose only word
it is, and every operation has its word. -/
def Obligations.OperationWordsAreUnambiguous : Prop :=
  (∀ i : Instr, decode (encode i) = .ok i) ∧
  (∀ (v : Word) (i : Instr), decode v = .ok i → encode i = v) ∧
  (∀ v : Word, (∃ i, decode v = .ok i) ↔ wellFormedWord v = true)

/-- 30_encoding.md R63: a word with OPCODE 0x6 to 0xE and MBZ = 0, or with MBZ not 0, written to OP, does nothing but
set GSTATUS.OPERR to 1 (ILLEGAL_OP). -/
def Obligations.IllegalWordSetsOnlyOperr : Prop :=
  ∀ (s : State) (v : Word) (rest : List Action), s.agenda = .hostWrite 0x000#12 v :: rest →
    (v.toNat / 16 ≠ 0 ∨ (6 ≤ v.toNat % 16 ∧ v.toNat % 16 ≤ 14)) →
      step s = .next { s with agenda := rest, opErr := .illegalOp } ∧ OpErr.illegalOp.code = 1#3

/-- 43_control.md R87: the order in which a write to OP decides. -/
def Obligations.DispatchDecidesInOrder : Prop :=
  ∀ (s : State) (v : Word),
    ((v.toNat / 16 ≠ 0 ∨ (6 ≤ v.toNat % 16 ∧ v.toNat % 16 ≤ 14)) →
      dispatchWord v s = .next { s with opErr := .illegalOp }) ∧
    (v = 0x0000#16 → dispatchWord v s = .next { s with opErr := .accepted }) ∧
    (v = 0x000F#16 → dispatchWord v s = .next { resetRegisters s with opErr := .accepted }) ∧
    (∀ i ∈ txOperations, v = encode i →
      (s.phaseTx = .send → dispatchWord v s = .next { s with opErr := .engineBusy }) ∧
      (s.phaseTx = .failed → dispatchWord v s = .next { s with opErr := .engineFailed }) ∧
      (s.phaseTx = .idle → dispatchWord v s = exec i { s with opErr := .accepted } ∧
        ∃ t, dispatchWord v s = .next t ∧ t.opErr = .accepted)) ∧
    (∀ i ∈ rxOperations, v = encode i →
      (s.phaseRx = .recv → dispatchWord v s = .next { s with opErr := .engineBusy }) ∧
      (s.phaseRx = .failed → dispatchWord v s = .next { s with opErr := .engineFailed }) ∧
      (s.phaseRx = .idle → dispatchWord v s = exec i { s with opErr := .accepted } ∧
        (s.rxNbytes.toNat ≤ 259 → ∃ t, dispatchWord v s = .next t ∧ t.opErr = .accepted)))

/-! ### The checksum, the encoder and the decoder as functions -/

/-- The five laws of 41_checksum.md R75. -/
def Obligations.ChecksumLaws : Prop :=
  ∀ (cmd ctrl : Byte) (params : List Byte),
    let sum := cmd.toNat + ctrl.toNat + (params.map BitVec.toNat).sum
    (checksum cmd ctrl params).toNat = (256 - sum % 256) % 256 ∧
    (∀ (cmd' ctrl' : Byte) (params' : List Byte), (cmd :: ctrl :: params).Perm (cmd' :: ctrl' :: params') →
      checksum cmd' ctrl' params' = checksum cmd ctrl params) ∧
    (sum + (checksum cmd ctrl params).toNat) % 256 = 0 ∧
    (∀ d : Byte,
      checksum (cmd + d) ctrl params = checksum cmd ctrl params - d ∧
      checksum cmd (ctrl + d) params = checksum cmd ctrl params - d ∧
      (∀ i, i < params.length →
        checksum cmd ctrl (params.set i (byteAt params i + d)) = checksum cmd ctrl params - d) ∧
      (d ≠ 0#8 → checksum cmd ctrl params - d ≠ checksum cmd ctrl params)) ∧
    (checksum cmd ctrl params = 0#8 ↔ sum % 256 = 0) ∧ checksum 0#8 0#8 [] = 0#8

/-- 40_frame_codec.md R66 with the layout of 30_encoding.md R54, byte by byte. -/
def Obligations.EncodedFrameLayout : Prop :=
  ∀ (cmd ctrl : Byte) (params : List Byte),
    (253 < params.length → encodeFrame cmd ctrl params = .error .paramsTooLong) ∧
    (params.length ≤ 253 → ∃ r, encodeFrame cmd ctrl params = .ok r ∧ r.length = 6 + params.length ∧
      r[0]? = some 0xAA#8 ∧ r[1]? = some 0xAA#8 ∧ (∃ l, r[2]? = some l ∧ l.toNat = params.length + 2) ∧
      r[3]? = some cmd ∧ r[4]? = some ctrl ∧ (∀ i, i < params.length → r[5 + i]? = params[i]?) ∧
      r[5 + params.length]? = some (checksum cmd ctrl params))

/-- 30_encoding.md R58: the control byte packs the two booleans, `control = (queued<<1)|rw`, with bits 7:2 zero. -/
def Obligations.ControlByteFields : Prop :=
  ∀ rw queued : Bool,
    controlRw (controlByte rw queued) = rw ∧ controlQueued (controlByte rw queued) = queued ∧
    controlReserved (controlByte rw queued) = 0#6 ∧
    (controlByte rw queued).toNat = 2 * queued.toNat + rw.toNat

/-- 40_frame_codec.md R68: a decode succeeds iff the buffer is exactly one well-formed frame. -/
def Obligations.DecodeSucceedsIffWellFormed : Prop :=
  ∀ bs : List Byte,
    (∃ m, decodeFrame bs = .ok m) ↔
      (bs.length = (byteAt bs 2).toNat + 4 ∧ 2 ≤ (byteAt bs 2).toNat ∧ byteAt bs 0 = 0xAA#8 ∧ byteAt bs 1 = 0xAA#8 ∧
        byteAt bs ((byteAt bs 2).toNat + 3) =
          checksum (byteAt bs 3) (byteAt bs 4) ((bs.drop 5).take ((byteAt bs 2).toNat + 3 - 5)))

/-- The decoder accepts exactly what the encoder builds, and returns what it was built from
(40_frame_codec.md R66, R68, R72). -/
def Obligations.DecoderAcceptsExactlyEncoderOutput : Prop :=
  ∀ (bs : List Byte) (m : Message),
    decodeFrame bs = .ok m ↔
      (encodeFrame m.commandId m.control m.params = .ok bs ∧ m.length.toNat = m.params.length + 2 ∧
        m.checksum = checksum m.commandId m.control m.params)

/-- Each error of the decoder has exactly the cause that 60_exceptions.md R92 gives it, the first failing check of R93
deciding. -/
def Obligations.DecodeErrorCauses : Prop :=
  ∀ bs : List Byte,
    let n := bs.length
    let l := (byteAt bs 2).toNat
    let header := byteAt bs 0 = 0xAA#8 ∧ byteAt bs 1 = 0xAA#8
    (decodeFrame bs = .error .truncated ↔ n < 6 ∨ (6 ≤ n ∧ header ∧ 2 ≤ l ∧ n < l + 4)) ∧
    (decodeFrame bs = .error .badHeader ↔ 6 ≤ n ∧ ¬header) ∧
    (decodeFrame bs = .error .badLength ↔ 6 ≤ n ∧ header ∧ (l < 2 ∨ l + 4 < n)) ∧
    (∀ e c, decodeFrame bs = .error (.integrityMismatch e c) ↔
      2 ≤ l ∧ n = l + 4 ∧ header ∧ e = checksum (byteAt bs 3) (byteAt bs 4) ((bs.drop 5).take (l - 2)) ∧
        c = byteAt bs (l + 3) ∧ e ≠ c)

/-- 40_frame_codec.md R73: one changed byte of a frame is always caught, with the error its place gives; the
unchanged frame decodes with the original checksum; two changed body bytes can go unnoticed. -/
def Obligations.SingleByteChangeIsCaught : Prop :=
  (∀ (cmd ctrl : Byte) (params : List Byte), params.length ≤ 253 →
    let f := frameBytes cmd ctrl params
    (∃ m, decodeFrame f = .ok m ∧ m.checksum = checksum cmd ctrl params) ∧
    ∀ (k : Nat) (b : Byte), k < f.length → b ≠ byteAt f k →
      (k < 2 → decodeFrame (f.set k b) = .error .badHeader) ∧
      (k = 2 → (b.toNat < 2 ∨ b.toNat < params.length + 2) → decodeFrame (f.set k b) = .error .badLength) ∧
      (k = 2 → params.length + 2 < b.toNat → decodeFrame (f.set k b) = .error .truncated) ∧
      (3 ≤ k → k < 5 + params.length →
        ∃ e, decodeFrame (f.set k b) = .error (.integrityMismatch e (checksum cmd ctrl params))) ∧
      (k = 5 + params.length →
        decodeFrame (f.set k b) = .error (.integrityMismatch (checksum cmd ctrl params) b))) ∧
  ∃ (f : List Byte) (m m' : Message) (j k : Nat) (b c : Byte), 3 ≤ j ∧ j < k ∧ k + 1 < f.length ∧
    b ≠ byteAt f j ∧ c ≠ byteAt f k ∧ decodeFrame f = .ok m ∧ decodeFrame ((f.set j b).set k c) = .ok m'

/-- 40_frame_codec.md R72: decoding an encoded frame gives back its inputs; and ENCODE, copying TXF[0 .. TX_FLEN) to
RXF and TX_FLEN to RX_NBYTES (on any state of the receive side that is IDLE), then DECODE, gives the Message. -/
def Obligations.EncodeCopyDecodeRoundTrip : Prop :=
  (∀ (cmd ctrl : Byte) (params : List Byte), params.length ≤ 253 →
    ∃ f m, encodeFrame cmd ctrl params = .ok f ∧ decodeFrame f = .ok m ∧ m.commandId = cmd ∧ m.control = ctrl ∧
      m.params = params ∧ m.length.toNat = params.length + 2) ∧
  (∀ s t u : State, s.phaseTx = .idle → s.txPlen.toNat ≤ 253 → exec .encode s = .next t →
    u.phaseRx = .idle → u.rxNbytes = t.txFlen → (∀ i, i < t.txFlen.toNat → rxf u i = txf t i) →
    ∃ w, exec .decode u = .next w ∧ w.rxValid = true ∧ w.rxStatus = .ok ∧ w.rxCmd = s.txCmd ∧ w.rxCtrl = s.txCtrl ∧
      w.rxPlen = s.txPlen ∧ (∀ i, i < s.txPlen.toNat → rxf w (5 + i) = txp s i))

/-! ### The operations -/

/-- 43_control.md R88: NOP, word 0x0000, is always accepted and writes OPERR only. -/
def Obligations.NopWritesOperrOnly : Prop :=
  decode 0x0000#16 = .ok .nop ∧ ∀ s : State, exec .nop s = .next { s with opErr := .accepted }

/-- 40_frame_codec.md R70. The bytes of TX_PARAM are taken as they are, written or not. -/
def Obligations.EncodeBuildsTheFrame : Prop :=
  decode 0x0001#16 = .ok .encode ∧
  ∀ s : State,
    let p := s.txPlen.toNat
    let params := (List.range p).map (txp s)
    (s.phaseTx ≠ .idle → ∃ e, e ≠ .accepted ∧ exec .encode s = .next { s with opErr := e }) ∧
    (s.phaseTx = .idle → p ≤ 253 → ∃ t, exec .encode s = .next t ∧
      { t with mem := s.mem } =
        { s with opErr := .accepted, txFlen := BitVec.ofNat 9 (6 + p), txCsum := checksum s.txCmd s.txCtrl params,
                 txStatus := .ok } ∧
      t.txFlen.toNat = 6 + p ∧
      txf t 0 = 0xAA#8 ∧ txf t 1 = 0xAA#8 ∧ (txf t 2).toNat = p + 2 ∧ txf t 3 = s.txCmd ∧ txf t 4 = s.txCtrl ∧
      (∀ i, i < p → txf t (5 + i) = txp s i) ∧ txf t (5 + p) = checksum s.txCmd s.txCtrl params ∧
      (∀ a, a < 0x200 ∨ 0x206 + p ≤ a → Memory.read t.mem a = Memory.read s.mem a) ∧
      (∀ (a : Addr) (v : Word) (u : State), a ≠ 0x000#12 → memWrite a v t = .next u →
        ∀ i, i < 259 → txf u i = txf t i)) ∧
    (s.phaseTx = .idle → 253 < p →
      let t := { s with opErr := .accepted, txFlen := 0#9, txStatus := .paramsTooLong }
      exec .encode s = .next t ∧ ∃ u, exec .transmit t = .next u ∧ u.phaseTx = .idle ∧ u.out = s.out)

/-- 41_checksum.md R76. -/
def Obligations.ChecksumOperationWritesTxCsum : Prop :=
  decode 0x0003#16 = .ok .checksum ∧
  ∀ s : State,
    let p := s.txPlen.toNat
    (s.phaseTx ≠ .idle → ∃ e, e ≠ .accepted ∧ exec .checksum s = .next { s with opErr := e }) ∧
    (s.phaseTx = .idle → p ≤ 253 →
      exec .checksum s = .next
        { s with opErr := .accepted, txCsum := checksum s.txCmd s.txCtrl ((List.range p).map (txp s)),
                 txStatus := .ok } ∧
      ∀ t, exec .encode s = .next t → exec .checksum t = .next t) ∧
    (s.phaseTx = .idle → 253 < p →
      exec .checksum s = .next { s with opErr := .accepted, txStatus := .paramsTooLong })

/-- 40_frame_codec.md R71 with R69. RX_NBYTES <= 259 is what 10_state.md R24 makes legal. -/
def Obligations.DecodePublishesTheResult : Prop :=
  decode 0x0005#16 = .ok .decode ∧
  ∀ s : State,
    let n := s.rxNbytes.toNat
    (s.phaseRx ≠ .idle → ∃ e, e ≠ .accepted ∧ exec .decode s = .next { s with opErr := e }) ∧
    (s.phaseRx = .idle → n ≤ 259 → ∃ t, exec .decode s = .next t ∧
      withMessageOf s t = { s with opErr := .accepted } ∧
      Published (decodeFrame ((List.range n).map (rxf s))) t ∧
      exec .decode t = .next t)

/-- 42_transport_framing.md R77. -/
def Obligations.TransmitStartsTheEngine : Prop :=
  decode 0x0002#16 = .ok .transmit ∧
  ∀ s : State,
    (s.phaseTx ≠ .idle → ∃ e, e ≠ .accepted ∧ exec .transmit s = .next { s with opErr := e }) ∧
    (s.phaseTx = .idle → s.txFlen = 0#9 →
      exec .transmit s = .next { s with opErr := .accepted, txSent := 0#9, txStatus := .ok }) ∧
    (s.phaseTx = .idle → s.txFlen ≠ 0#9 →
      exec .transmit s = .next
        { s with opErr := .accepted, txSent := 0#9, phaseTx := .send, txStatus := .inProgress }) ∧
    (∀ (a : Addr) (v : Word) (t : State), s.phaseTx = .send → s.Legal → a ≠ 0x000#12 → memWrite a v s = .next t →
      t.phaseTx = .send ∧ txImage t = txImage s)

/-- 42_transport_framing.md R80. -/
def Obligations.ReceiveStartsTheEngine : Prop :=
  decode 0x0004#16 = .ok .receive ∧
  ∀ s : State,
    (s.phaseRx ≠ .idle → ∃ e, e ≠ .accepted ∧ exec .receive s = .next { s with opErr := e }) ∧
    (s.phaseRx = .idle →
      exec .receive s = .next
        { s with opErr := .accepted, rxCount := 0#9, rxNeed := 3#9, rxLen := 0#8, rxCmd := 0#8, rxCtrl := 0#8,
                 rxPlen := 0#8, rxCsumExp := 0#8, rxCsumRcv := 0#8, rxValid := false, phaseRx := .recv,
                 rxStatus := .inProgress })

/-- No operation takes an input event, emits a byte or uses up an answer (00_scope.md R9): those are engine steps. -/
def Obligations.OperationsLeaveTheChannelsAlone : Prop :=
  ∀ (i : Instr) (s t : State), exec i s = .next t →
    t.rxIn = s.rxIn ∧ t.rxInEnded = s.rxInEnded ∧ t.out = s.out ∧ t.txAnswers = s.txAnswers ∧
    t.agenda = s.agenda ∧ t.hostReads = s.hostReads

/-! ### The engines -/

/-- 42_transport_framing.md R78: what a step of the transmit engine does when it is enabled; out of SEND, or with no
answer yet, the engine holds. TX_SENT <= 258 is what 10_state.md R23 and R22 give a running TRANSMIT. That an agenda
entry for an engine that holds is used up with no effect is the model's choice (log 4), and so is that the answers stand
in a queue of which a step uses up the first (log 7). -/
def Obligations.TransmitEngineStep : Prop :=
  ∀ (s : State) (rest : List Action), s.agenda = .txStep :: rest →
    (∀ as, s.phaseTx = .send → s.txAnswers = .accept :: as → s.txSent.toNat ≤ 258 →
      let t := { s with agenda := rest, txAnswers := as, out := s.out ++ [txf s s.txSent.toNat],
                        txSent := s.txSent + 1#9 }
      (s.txSent + 1#9 = s.txFlen → step s = .next { t with phaseTx := .idle, txStatus := .ok }) ∧
      (s.txSent + 1#9 ≠ s.txFlen → step s = .next t)) ∧
    (∀ as, s.phaseTx = .send → s.txAnswers = .error :: as → s.txSent.toNat ≤ 258 →
      step s = .next
        { s with agenda := rest, txAnswers := as, phaseTx := .failed, txStatus := .transportFailure }) ∧
    ((s.phaseTx ≠ .send ∨ s.txAnswers = []) → step s = .next { s with agenda := rest })

/-- 42_transport_framing.md R81. -/
def Obligations.ReceiveEngineByteStep : Prop :=
  ∀ (s : State) (rest : List Action) (b : Byte) (es : List RxEvent), s.agenda = .rxStep :: rest →
    s.phaseRx = .recv → s.rxInEnded = false → s.rxIn = .byte b :: es → s.rxCount.toNat ≤ 258 →
    let count := s.rxCount + 1#9
    let need := if count = 3#9 then b.zeroExtend 9 + 4#9 else s.rxNeed
    let t₀ := { s with agenda := rest, rxIn := es, rxCount := count, rxNeed := need }
    ∃ t, step s = .next t ∧
      rxf t s.rxCount.toNat = b ∧
      (∀ a, a ≠ 0x400 + s.rxCount.toNat → Memory.read t.mem a = Memory.read s.mem a) ∧
      (count ≠ need → { t with mem := s.mem } = t₀) ∧
      (count = need →
        withMessageOf s { t with mem := s.mem } = { t₀ with rxNbytes := count, phaseRx := .idle } ∧
        Published (decodeFrame ((List.range count.toNat).map (rxf t))) t)

/-- 42_transport_framing.md R82; that the channel delivers nothing more is 20_memory.md R47 (log 6). -/
def Obligations.ReceiveEngineFailureStep : Prop :=
  ∀ (s : State) (rest : List Action) (e : RxEvent) (es : List RxEvent), s.agenda = .rxStep :: rest →
    s.phaseRx = .recv → s.rxInEnded = false → s.rxIn = e :: es → (e = .closed ∨ e = .error) →
      step s = .next
        { s with agenda := rest, rxIn := [], rxInEnded := true, rxNbytes := s.rxCount, phaseRx := .failed,
                 rxStatus := .transportFailure }

/-- An engine that is not enabled holds: the transmit engine out of SEND or unanswered, the receive engine out of RECV
or without an event, which stays in the channel (20_memory.md R47, R48, 93_implementation_defined.md I5). That such an
entry of the agenda passes with no effect is the model's choice (log 4). -/
def Obligations.EnginesHoldWhenNotEnabled : Prop :=
  ∀ (s : State) (rest : List Action),
    (s.agenda = .txStep :: rest → (s.phaseTx ≠ .send ∨ s.txAnswers = []) → step s = .next { s with agenda := rest }) ∧
    (s.agenda = .rxStep :: rest → (s.phaseRx ≠ .recv ∨ s.rxInEnded = true ∨ s.rxIn = []) →
      step s = .next { s with agenda := rest })

/-- An engine that would index past byte 258 of its frame buffer stops, by a fault of the model's own (log 8). No rule
of the spec says so: 10_state.md R23 to R25 keep the counts legal. -/
def Obligations.IndexOutsideAFrameBufferFaults : Prop :=
  (∀ s : State, s.phaseRx = .idle → 259 < s.rxNbytes.toNat → exec .decode s = .fault .rxFrameIndex) ∧
  (∀ (s : State) (r : TxAnswer) (as : List TxAnswer), s.phaseTx = .send → s.txAnswers = r :: as →
    259 ≤ s.txSent.toNat → txStep s = .fault .txFrameIndex) ∧
  (∀ (s : State) (b : Byte) (es : List RxEvent), s.phaseRx = .recv → s.rxInEnded = false → s.rxIn = .byte b :: es →
    259 ≤ s.rxCount.toNat → rxStep s = .fault .rxFrameIndex)

/-- The environment's steps (20_memory.md R47, R48): an offered event joins the input channel behind the others, or is
lost where the channel has ended or is to end; an answer joins the output channel's answers behind the others. That
both are queues is the model's choice (log 6, log 7). -/
def Obligations.EnvironmentStepsQueueInOrder : Prop :=
  ∀ (s : State) (rest : List Action),
    (∀ e, s.agenda = .offer e :: rest →
      (s.rxInEnded = false → s.rxIn.any RxEvent.ending = false →
        step s = .next { s with agenda := rest, rxIn := s.rxIn ++ [e] }) ∧
      ((s.rxInEnded = true ∨ s.rxIn.any RxEvent.ending = true) → step s = .next { s with agenda := rest })) ∧
    (∀ r, s.agenda = .answer r :: rest →
      step s = .next { s with agenda := rest, txAnswers := s.txAnswers ++ [r] })

/-- 42_transport_framing.md R79, for every interleaving of host, engines and environment: from its start to its end a
TRANSMIT has appended a prefix of TXF[0 .. TX_FLEN) to `out`, in order: all of it when it ends OK, a proper prefix
when it fails, TX_SENT bytes long; only a RESET abandons it. After a successful ENCODE the image is the frame of
40_frame_codec.md R66. -/
def Obligations.TransmitEmitsTheImageInOrder : Prop :=
  (∀ s t : State, s.phaseTx = .idle → exec .transmit s = .next t →
    (s.txFlen = 0#9 → t.phaseTx = .idle ∧ t.txStatus = .ok ∧ t.out = s.out) ∧
    (s.txFlen ≠ 0#9 → Sending s.out t ∧ txImage t = txImage s)) ∧
  (∀ (o : List Byte) (s t : State), s.Legal → Sending o s → step s = .next t →
    (Sending o t ∧ txImage t = txImage s) ∨
    (t.phaseTx = .idle ∧ t.txStatus = .ok ∧ t.out = o ++ txImage s) ∨
    (t.phaseTx = .failed ∧ t.txStatus = .transportFailure ∧
      t.txSent.toNat < (txImage s).length ∧ t.out = o ++ (txImage s).take t.txSent.toNat) ∨
    ((∃ rest, s.agenda = .hostWrite 0x000#12 0x000F#16 :: rest) ∧ t.phaseTx = .idle ∧ t.txStatus = .none ∧
      t.out = s.out)) ∧
  (∀ s t : State, s.phaseTx = .idle → s.txPlen.toNat ≤ 253 → exec .encode s = .next t →
    txImage t = frameBytes s.txCmd s.txCtrl ((List.range s.txPlen.toNat).map (txp s)))

/-- A TRANSMIT whose every offered byte is accepted ends OK after TX_FLEN engine steps, with exactly the image
appended and exactly TX_FLEN answers used. That the answers wait in a queue, given before their bytes are offered, is
the model's choice (log 7). -/
def Obligations.TransmitRunsToItsEnd : Prop :=
  ∀ (s t : State) (as : List TxAnswer), s.phaseTx = .idle → s.txFlen ≠ 0#9 → s.txFlen.toNat ≤ 259 →
    s.txAnswers = List.replicate s.txFlen.toNat .accept ++ as → exec .transmit s = .next t →
    ∃ u : State, Host.Core.run core s.txFlen.toNat (t.scheduled (List.replicate s.txFlen.toNat .txStep)) = .next u ∧
      u.out = s.out ++ txImage s ∧ u.phaseTx = .idle ∧ u.txStatus = .ok ∧ u.txSent = s.txFlen ∧ u.txAnswers = as

/-- 42_transport_framing.md R83, for every interleaving: a RECEIVE that ends without a transport failure has taken
exactly L + 4 bytes, L the third one, has left every later event in the channel, and publishes the decode of exactly
those bytes; the next RECEIVE starts with the next event. -/
def Obligations.ReceiveTakesExactlyOneFrame : Prop :=
  (∀ s t : State, s.phaseRx = .idle → exec .receive s = .next t → Receiving [] t ∧ t.rxIn = s.rxIn) ∧
  (∀ (bs : List Byte) (s t : State), s.Legal → Receiving bs s → step s = .next t →
    (Receiving bs t ∧ (t.rxIn = s.rxIn ∨ ∃ e, t.rxIn = s.rxIn ++ [e])) ∨
    (∃ b es, s.rxIn = .byte b :: es ∧ t.rxIn = es ∧ Receiving (bs ++ [b]) t) ∨
    (∃ b es, s.rxIn = .byte b :: es ∧ t.rxIn = es ∧ t.phaseRx = .idle ∧
      (bs ++ [b]).length = (byteAt (bs ++ [b]) 2).toNat + 4 ∧ t.rxNbytes.toNat = (bs ++ [b]).length ∧
      Published (decodeFrame (bs ++ [b])) t) ∨
    (∃ e es, s.rxIn = e :: es ∧ e.ending = true ∧ t.phaseRx = .failed ∧ t.rxStatus = .transportFailure ∧
      t.rxNbytes.toNat = bs.length) ∨
    ((∃ rest, s.agenda = .hostWrite 0x000#12 0x000F#16 :: rest) ∧ t.phaseRx = .idle ∧ t.rxStatus = .none ∧
      t.rxIn = s.rxIn))

/-- A RECEIVE whose channel holds the L + 4 bytes its third byte claims ends after L + 4 engine steps, having decoded
exactly those bytes, whether they are a frame or not, with the rest of the stream left (70_reset_and_hazards.md
R111). -/
def Obligations.ReceiveRunsToItsEnd : Prop :=
  ∀ (s t : State) (bs : List Byte) (es : List RxEvent), s.phaseRx = .idle → s.rxInEnded = false →
    bs.length = (byteAt bs 2).toNat + 4 → s.rxIn = asEvents bs ++ es → exec .receive s = .next t →
    ∃ u : State, Host.Core.run core bs.length (t.scheduled (List.replicate bs.length .rxStep)) = .next u ∧
      u.rxIn = es ∧ u.phaseRx = .idle ∧ u.rxCount.toNat = bs.length ∧ u.rxNbytes.toNat = bs.length ∧
      rxBuffer u bs.length = bs ∧ Published (decodeFrame bs) u

/-- 42_transport_framing.md R84: the frame one FCODEC encodes and sends, delivered unchanged to the input channel of
another, is received in exactly 6 + P steps and decodes to the sender's command id, control and params. That the
output channel's answers wait in a queue is the model's choice (log 7). -/
def Obligations.SentFrameIsReceivedAsSent : Prop :=
  ∀ (s s₁ s₂ s₃ r r₁ : State) (es : List RxEvent),
    let n := 6 + s.txPlen.toNat
    s.phaseTx = .idle → s.txPlen.toNat ≤ 253 → s.txAnswers = List.replicate n .accept →
    exec .encode s = .next s₁ → exec .transmit s₁ = .next s₂ →
    Host.Core.run core n (s₂.scheduled (List.replicate n .txStep)) = .next s₃ →
    r.phaseRx = .idle → r.rxInEnded = false → r.rxIn = asEvents (s₃.out.drop s.out.length) ++ es →
    exec .receive r = .next r₁ →
    ∃ r₂ : State, Host.Core.run core n (r₁.scheduled (List.replicate n .rxStep)) = .next r₂ ∧
      r₂.rxIn = es ∧ r₂.phaseRx = .idle ∧ r₂.rxStatus = .ok ∧ r₂.rxValid = true ∧ r₂.rxCmd = s.txCmd ∧
      r₂.rxCtrl = s.txCtrl ∧ r₂.rxPlen = s.txPlen ∧
      (∀ i, i < s.txPlen.toNat → rxf r₂ (5 + i) = txp s i)

/-- From a legal state, 259 steps of an engine and no other bring it out of SEND or RECV, or use up what the channel
has for it: an engine waits only for its channel (93_implementation_defined.md I5, 30_encoding.md R64). That 259 steps
stand for a `run` line is the model's reading (log 16), and that the steps left once the engine has stopped hold is its
choice (log 4), as is the queue of answers (log 7). -/
def Obligations.EnginesWaitOnlyForTheirChannel : Prop :=
  ∀ s : State, s.Legal →
    (∃ t : State, Host.Core.run core 259 (s.scheduled (List.replicate 259 .txStep)) = .next t ∧
      (t.phaseTx ≠ .send ∨ t.txAnswers = [])) ∧
    (∃ t : State, Host.Core.run core 259 (s.scheduled (List.replicate 259 .rxStep)) = .next t ∧
      (t.phaseRx ≠ .recv ∨ t.rxIn = []))

/-! ### The host bus -/

/-- 43_control.md R85, with 20_memory.md R40 for the reserved locations. -/
def Obligations.HostReadValues : Prop :=
  ∀ s : State,
    memRead 0x000#12 s = 0x0000#16 ∧
    (memRead 0x001#12 s).toNat =
      s.opErr.code.toNat * 16 + (rxFailed s).toNat * 8 + (txFailed s).toNat * 4 + (rxBusy s).toNat * 2 +
        (txBusy s).toNat ∧
    (memRead 0x002#12 s).toNat = s.txStatus.code.toNat ∧ (memRead 0x003#12 s).toNat = s.rxStatus.code.toNat ∧
    (memRead 0x004#12 s).toNat = s.txCmd.toNat ∧ (memRead 0x005#12 s).toNat = s.txCtrl.toNat ∧
    (memRead 0x006#12 s).toNat = s.txPlen.toNat ∧ (memRead 0x007#12 s).toNat = s.txCsum.toNat ∧
    (memRead 0x008#12 s).toNat = s.txFlen.toNat ∧ (memRead 0x009#12 s).toNat = s.txSent.toNat ∧
    (memRead 0x00A#12 s).toNat = s.rxNbytes.toNat ∧ (memRead 0x00B#12 s).toNat = s.rxCount.toNat ∧
    (memRead 0x00C#12 s).toNat = s.rxLen.toNat ∧ (memRead 0x00D#12 s).toNat = s.rxCmd.toNat ∧
    (memRead 0x00E#12 s).toNat = s.rxCtrl.toNat ∧ (memRead 0x00F#12 s).toNat = s.rxPlen.toNat ∧
    (memRead 0x010#12 s).toNat = s.rxCsumExp.toNat ∧ (memRead 0x011#12 s).toNat = s.rxCsumRcv.toNat ∧
    (memRead 0x012#12 s).toNat = s.rxValid.toNat ∧
    ∀ a : Addr,
      (0x100 ≤ a.toNat ∧ a.toNat ≤ 0x1FC → (memRead a s).toNat = (txp s (a.toNat - 0x100)).toNat) ∧
      (0x200 ≤ a.toNat ∧ a.toNat ≤ 0x302 → (memRead a s).toNat = (txf s (a.toNat - 0x200)).toNat) ∧
      (0x400 ≤ a.toNat ∧ a.toNat ≤ 0x502 → (memRead a s).toNat = (rxf s (a.toNat - 0x400)).toNat) ∧
      ((0x013 ≤ a.toNat ∧ a.toNat ≤ 0x0FF) ∨ (0x1FD ≤ a.toNat ∧ a.toNat ≤ 0x1FF) ∨
        (0x303 ≤ a.toNat ∧ a.toNat ≤ 0x3FF) ∨ 0x503 ≤ a.toNat → memRead a s = 0x0000#16)

/-- 43_control.md R86: what each location stores of a host write, as a later read shows it; a write to OP dispatches. -/
def Obligations.HostWriteStores : Prop :=
  ∀ (a : Addr) (v : Word) (s : State),
    let n := a.toNat
    let idle := s.phaseRx = .idle
    (n = 0 → memWrite a v s = dispatchWord v s) ∧
    (n ≠ 0 → ∃ t, memWrite a v s = .next t ∧
      ((4 ≤ n ∧ n ≤ 6) ∨ (0x100 ≤ n ∧ n ≤ 0x1FC) ∨ (0x400 ≤ n ∧ n ≤ 0x502 ∧ idle) →
        (memRead a t).toNat = v.toNat % 256) ∧
      (n = 0x00A ∧ idle → (memRead a t).toNat = min (v.toNat % 512) 259) ∧
      (¬((4 ≤ n ∧ n ≤ 6) ∨ (0x100 ≤ n ∧ n ≤ 0x1FC) ∨ (0x400 ≤ n ∧ n ≤ 0x502 ∧ idle) ∨ (n = 0x00A ∧ idle)) →
        t = s))

/-- 20_memory.md R42: a host read changes nothing (but the model's record of what the host saw, log 9) and a second
read returns the same; a host write elsewhere than to OP changes no other location and no hidden state; a write to OP
starts an operation and is not idempotent. -/
def Obligations.HostAccessesStayLocal : Prop :=
  (∀ (s : State) (a : Addr) (rest : List Action), s.agenda = .hostRead a :: rest →
    step s = .next { s with agenda := rest, hostReads := s.hostReads ++ [memRead a s] } ∧
    (∀ t, step s = .next t → ∀ b, memRead b t = memRead b s)) ∧
  (∀ (s t : State) (a : Addr) (v : Word), a ≠ 0x000#12 → memWrite a v s = .next t →
    (∀ b, b ≠ a → memRead b t = memRead b s) ∧
    { t with mem := s.mem, txCmd := s.txCmd, txCtrl := s.txCtrl, txPlen := s.txPlen, rxNbytes := s.rxNbytes } = s) ∧
  (∀ (v : Word) (s : State), memWrite 0x000#12 v s = dispatchWord v s) ∧
  (∃ (v : Word) (s t u : State), memWrite 0x000#12 v s = .next t ∧ memWrite 0x000#12 v t = .next u ∧ u ≠ t)

/-- 10_state.md R16: the fields of GSTATUS; only a write to OP changes OPERR; the reset value. -/
def Obligations.GstatusFields : Prop :=
  (∀ s : State,
    ((gstatus s).getLsbD 0 = true ↔ s.phaseTx = .send) ∧ ((gstatus s).getLsbD 1 = true ↔ s.phaseRx = .recv) ∧
    ((gstatus s).getLsbD 2 = true ↔ s.phaseTx = .failed) ∧ ((gstatus s).getLsbD 3 = true ↔ s.phaseRx = .failed) ∧
    (gstatus s).extractLsb' 4 3 = s.opErr.code ∧ s.opErr.code.toNat ≤ 3 ∧ (gstatus s).extractLsb' 7 9 = 0#9) ∧
  (∀ s t : State, step s = .next t → t.opErr ≠ s.opErr → ∃ v rest, s.agenda = .hostWrite 0x000#12 v :: rest) ∧
  gstatus State.reset = 0x0000#16

/-- The memory's form is canonical (log 2): two memories in it that read alike at every address, whatever the bytes
held at power-on, are the same list. -/
def Obligations.EqualReadsMeanEqualMemories : Prop :=
  ∀ m n : Memory, Memory.wf m → Memory.wf n →
    (∀ (p : Nat → Byte) (a : Nat), Memory.readWith p m a = Memory.readWith p n a) → m = n

/-! ### Rules of the whole machine -/

/-- Only RESET leaves FAILED (10_state.md R33, R34). -/
def Obligations.OnlyResetLeavesFailed : Prop :=
  ∀ s t : State, step s = .next t →
    ((s.phaseTx = .failed ∧ t.phaseTx ≠ .failed) ∨ (s.phaseRx = .failed ∧ t.phaseRx ≠ .failed)) →
      ∃ rest, s.agenda = .hostWrite 0x000#12 0x000F#16 :: rest

/-- 60_exceptions.md R95: an error status stays until the next accepted operation of its engine, or RESET. -/
def Obligations.ErrorStatusStays : Prop :=
  ∀ s t : State, s.Legal → step s = .next t →
    (s.txStatus ∈ [StatusCode.paramsTooLong, .transportFailure] → t.txStatus ≠ s.txStatus →
      ∃ v rest i, s.agenda = .hostWrite 0x000#12 v :: rest ∧ decode v = .ok i ∧
        (i = .reset ∨ (s.phaseTx = .idle ∧ i ∈ txOperations))) ∧
    (s.rxStatus ∈ [StatusCode.truncated, .integrityMismatch, .transportFailure, .badHeader, .badLength] →
      t.rxStatus ≠ s.rxStatus →
      ∃ v rest i, s.agenda = .hostWrite 0x000#12 v :: rest ∧ decode v = .ok i ∧
        (i = .reset ∨ (s.phaseRx = .idle ∧ i ∈ rxOperations)))

/-- `out` changes only by the transmit engine appending the byte it offers when the channel accepts it
(20_memory.md R48). That the `Accept` is the first of a queue of answers is the model's choice (log 7). -/
def Obligations.OutputGrowsOnlyByAcceptedBytes : Prop :=
  ∀ s t : State, step s = .next t → t.out ≠ s.out →
    s.phaseTx = .send ∧ t.out = s.out ++ [txf s s.txSent.toNat] ∧
    (∃ rest, s.agenda = .txStep :: rest) ∧ ∃ as, s.txAnswers = .accept :: as

/-- The input channel loses, duplicates and reorders nothing: it changes only by an offer at its end, or by the
receive engine, while RECV, taking its first event; after `Closed` or `Error` it delivers nothing more
(20_memory.md R47; log 6). -/
def Obligations.InputIsTakenInOrderOnlyWhileReceiving : Prop :=
  ∀ s t : State, step s = .next t →
    (t.rxIn ≠ s.rxIn →
      (∃ e, t.rxIn = s.rxIn ++ [e] ∧ ∃ rest, s.agenda = .offer e :: rest) ∨
      (s.phaseRx = .recv ∧ (∃ rest, s.agenda = .rxStep :: rest) ∧
        ∃ e es, s.rxIn = e :: es ∧ t.rxIn = (if e.ending then [] else es))) ∧
    (s.rxInEnded = true → t.rxInEnded = true ∧ t.rxIn = s.rxIn)

/-- The engines are independent (20_memory.md R53, 60_exceptions.md R93): a TX operation or step neither changes nor
looks at the receive side, and an RX operation or step neither changes nor looks at the transmit side. -/
def Obligations.EnginesAreIndependent : Prop :=
  (∀ i ∈ txOperations, ∀ s t : State, exec i s = .next t →
    withRxSide t s = t ∧ ∀ r, exec i (withRxSide s r) = .next (withRxSide t r)) ∧
  (∀ s t : State, txStep s = .next t →
    withRxSide t s = t ∧ ∀ r, txStep (withRxSide s r) = .next (withRxSide t r)) ∧
  (∀ i ∈ rxOperations, ∀ s t : State, exec i s = .next t →
    withTxSide t s = t ∧ ∀ r, exec i (withTxSide s r) = .next (withTxSide t r)) ∧
  (∀ s t : State, rxStep s = .next t →
    withTxSide t s = t ∧ ∀ r, rxStep (withTxSide s r) = .next (withTxSide t r))

/-- Who writes each buffer (10_state.md R30 to R32): TX_PARAM the host; TX_FRAME an accepted ENCODE; RX_FRAME the host
while the receive engine is IDLE, or that engine at RX_COUNT while it receives. -/
def Obligations.EachBufferHasItsWriters : Prop :=
  ∀ (s t : State) (a : Nat), step s = .next t → Memory.read t.mem a ≠ Memory.read s.mem a →
    (0x100 ≤ a ∧ a ≤ 0x1FC ∧ ∃ v rest, s.agenda = .hostWrite (BitVec.ofNat 12 a) v :: rest) ∨
    (0x200 ≤ a ∧ a ≤ 0x302 ∧ s.phaseTx = .idle ∧ ∃ rest, s.agenda = .hostWrite 0x000#12 0x0001#16 :: rest) ∨
    (0x400 ≤ a ∧ a ≤ 0x502 ∧ s.phaseRx = .idle ∧ ∃ v rest, s.agenda = .hostWrite (BitVec.ofNat 12 a) v :: rest) ∨
    (0x400 ≤ a ∧ a ≤ 0x502 ∧ s.phaseRx = .recv ∧ a = 0x400 + s.rxCount.toNat ∧ ∃ rest, s.agenda = .rxStep :: rest)
end

