-- ==== Sys2Proof/Laws/Frame.lean ====
section
/-! SUPPORT. What the codec's functions give: the sum behind the checksum, the bytes of a frame place by place, and
what the decoder reads from a frame. -/

namespace Sys2Proof.Machine

/-! ### The sum behind the checksum -/

theorem foldl_add_start (ps : List Byte) : ∀ a b : Byte, ps.foldl (· + ·) (a + b) = a + ps.foldl (· + ·) b := by
  induction ps with
  | nil => intro a b; rfl
  | cons p ps ih => intro a b; simp only [List.foldl_cons]; rw [BitVec.add_assoc]; exact ih a (b + p)

theorem foldl_add_cons (ps : List Byte) (a : Byte) : ps.foldl (· + ·) a = a + ps.foldl (· + ·) 0#8 := by
  simpa using foldl_add_start ps a 0#8

/-- Changing one addend by `d` changes the sum by `d`. -/
theorem foldl_add_set (d : Byte) : ∀ (ps : List Byte) (a : Byte) (i : Nat), i < ps.length →
    (ps.set i (byteAt ps i + d)).foldl (· + ·) a = ps.foldl (· + ·) a + d := by
  intro ps
  induction ps with
  | nil => intro a i h; simp at h
  | cons p ps ih =>
    intro a i h
    cases i with
    | zero =>
      simp only [List.set_cons_zero, List.foldl_cons, byteAt, List.getD_cons_zero]
      rw [show a + (p + d) = d + (a + p) by ac_rfl, foldl_add_start, BitVec.add_comm]
    | succ i =>
      simp only [List.set_cons_succ, List.foldl_cons]
      have : byteAt (p :: ps) (i + 1) = byteAt ps i := by simp [byteAt]
      rw [this]
      exact ih (a + p) i (by simpa using h)

/-- The sum of the addends, wrapped once at the end. -/
theorem foldl_add_toNat (ps : List Byte) : ∀ a : Byte,
    (ps.foldl (· + ·) a).toNat = (a.toNat + (ps.map BitVec.toNat).sum) % 256 := by
  induction ps with
  | nil => intro a; simp [Nat.mod_eq_of_lt a.isLt]
  | cons p ps ih =>
    intro a
    simp only [List.foldl_cons, ih, BitVec.toNat_add, List.map_cons, List.sum_cons]
    omega

/-! ### The bytes of a frame -/

@[simp] theorem length_frameBytes (cmd ctrl : Byte) (ps : List Byte) :
    (frameBytes cmd ctrl ps).length = ps.length + 6 := by simp [frameBytes]

@[simp] theorem byteAt_frameBytes_zero (cmd ctrl : Byte) (ps : List Byte) :
    byteAt (frameBytes cmd ctrl ps) 0 = Config.hdr0 := rfl

@[simp] theorem byteAt_frameBytes_one (cmd ctrl : Byte) (ps : List Byte) :
    byteAt (frameBytes cmd ctrl ps) 1 = Config.hdr1 := rfl

@[simp] theorem byteAt_frameBytes_two (cmd ctrl : Byte) (ps : List Byte) :
    byteAt (frameBytes cmd ctrl ps) 2 = BitVec.ofNat 8 (ps.length + 2) := rfl

@[simp] theorem byteAt_frameBytes_three (cmd ctrl : Byte) (ps : List Byte) :
    byteAt (frameBytes cmd ctrl ps) 3 = cmd := rfl

@[simp] theorem byteAt_frameBytes_four (cmd ctrl : Byte) (ps : List Byte) :
    byteAt (frameBytes cmd ctrl ps) 4 = ctrl := rfl

theorem byteAt_frameBytes_param (cmd ctrl : Byte) (ps : List Byte) {i : Nat} (h : i < ps.length) :
    byteAt (frameBytes cmd ctrl ps) (5 + i) = byteAt ps i := by
  rw [Nat.add_comm]; simp [byteAt, frameBytes, List.getElem?_append_left, h]

theorem byteAt_frameBytes_checksum (cmd ctrl : Byte) (ps : List Byte) :
    byteAt (frameBytes cmd ctrl ps) (5 + ps.length) = checksum cmd ctrl ps := by
  rw [Nat.add_comm]; simp [byteAt, frameBytes]

theorem paramsOf_frameBytes (cmd ctrl : Byte) (ps : List Byte) :
    paramsOf (frameBytes cmd ctrl ps) (ps.length + 2) = ps := by
  simp [paramsOf, frameBytes]

/-- The length byte of a frame, as a number. -/
theorem lengthByte_toNat {n : Nat} (h : n ≤ 253) : (BitVec.ofNat 8 (n + 2)).toNat = n + 2 := by
  simp; omega

theorem byteAt_set (bs : List Byte) (k : Nat) (b : Byte) (i : Nat) (h : k < bs.length) :
    byteAt (bs.set k b) i = if i = k then b else byteAt bs i := by
  by_cases e : i = k
  · subst e; simp [byteAt, h]
  · simp [byteAt, Ne.symm e, e]

theorem length_paramsOf {bs : List Byte} {l : Nat} (h : bs.length = l + 4) : (paramsOf bs l).length = l - 2 := by
  simp [paramsOf]; omega

/-! ### The decoder -/

/-- Both header bytes are 0xAA (30_encoding.md R55). -/
def headerGood (bs : List Byte) : Prop := byteAt bs 0 = 0xAA#8 ∧ byteAt bs 1 = 0xAA#8

/-- The Message `decodeFrame` reads from a buffer that passes every check (40_frame_codec.md R67). -/
def messageOf (bs : List Byte) : Message where
  length := byteAt bs 2
  commandId := byteAt bs 3
  control := byteAt bs 4
  params := paramsOf bs (byteAt bs 2).toNat
  checksum := byteAt bs ((byteAt bs 2).toNat + 3)

/-- The checksum `decodeFrame` recomputes (40_frame_codec.md R67). -/
def expectedOf (bs : List Byte) : Byte :=
  checksum (byteAt bs 3) (byteAt bs 4) (paramsOf bs (byteAt bs 2).toNat)

/-- Everything the decoder can answer, the first failing check deciding (40_frame_codec.md R67, 60_exceptions.md R93). -/
theorem decodeFrame_cases (bs : List Byte) :
    (bs.length < 6 ∧ decodeFrame bs = .error .truncated) ∨
    (6 ≤ bs.length ∧ ¬headerGood bs ∧ decodeFrame bs = .error .badHeader) ∨
    (6 ≤ bs.length ∧ headerGood bs ∧ (byteAt bs 2).toNat < 2 ∧ decodeFrame bs = .error .badLength) ∨
    (6 ≤ bs.length ∧ headerGood bs ∧ 2 ≤ (byteAt bs 2).toNat ∧ bs.length < (byteAt bs 2).toNat + 4 ∧
      decodeFrame bs = .error .truncated) ∨
    (headerGood bs ∧ 2 ≤ (byteAt bs 2).toNat ∧ (byteAt bs 2).toNat + 4 < bs.length ∧
      decodeFrame bs = .error .badLength) ∨
    (headerGood bs ∧ 2 ≤ (byteAt bs 2).toNat ∧ bs.length = (byteAt bs 2).toNat + 4 ∧
      expectedOf bs ≠ (messageOf bs).checksum ∧
      decodeFrame bs = .error (.integrityMismatch (expectedOf bs) (messageOf bs).checksum)) ∨
    (headerGood bs ∧ 2 ≤ (byteAt bs 2).toNat ∧ bs.length = (byteAt bs 2).toNat + 4 ∧
      expectedOf bs = (messageOf bs).checksum ∧ decodeFrame bs = .ok (messageOf bs)) := by
  have hg : (byteAt bs 0 ≠ Config.hdr0 ∨ byteAt bs 1 ≠ Config.hdr1) ↔ ¬headerGood bs := by
    unfold headerGood; tauto
  unfold decodeFrame
  dsimp only
  by_cases h₁ : bs.length < 6
  · left; exact ⟨h₁, if_pos h₁⟩
  right; rw [if_neg h₁]
  by_cases h₂ : byteAt bs 0 ≠ Config.hdr0 ∨ byteAt bs 1 ≠ Config.hdr1
  · left; exact ⟨by omega, hg.mp h₂, if_pos h₂⟩
  have hh : headerGood bs := Classical.not_not.mp fun c => h₂ (hg.mpr c)
  right; rw [if_neg h₂]
  by_cases h₃ : (byteAt bs 2).toNat < 2
  · left; exact ⟨by omega, hh, h₃, if_pos h₃⟩
  right; rw [if_neg h₃]
  by_cases h₄ : bs.length < (byteAt bs 2).toNat + 4
  · left; exact ⟨by omega, hh, by omega, h₄, if_pos h₄⟩
  right; rw [if_neg h₄]
  by_cases h₅ : (byteAt bs 2).toNat + 4 < bs.length
  · left; exact ⟨hh, by omega, h₅, if_pos h₅⟩
  right; rw [if_neg h₅]
  by_cases h₆ : expectedOf bs = (messageOf bs).checksum
  · right; exact ⟨hh, by omega, by omega, h₆, if_neg (fun c => c h₆)⟩
  · left; exact ⟨hh, by omega, by omega, h₆, if_pos h₆⟩

end Sys2Proof.Machine
end

