-- ==== Sys2Proof/Laws/Memory.lean ====
section
/-! SUPPORT. The laws of the buffers: a read gives the byte last written, a write leaves every other address alone,
every operation keeps the canonical form (log 2), and where the three buffers lie. -/

namespace Sys2Proof.Machine

/-! ### Read after write -/

theorem lookup_write (m : Memory) (a : Nat) (b : Byte) (x : Nat) :
    Memory.lookup (Memory.write m a b) x = if x = a then some b else Memory.lookup m x := by
  induction m with
  | nil => rfl
  | cons c m ih =>
    obtain ⟨k, v⟩ := c
    by_cases hlt : a < k
    · simp [Memory.write, hlt, Memory.lookup]
    · by_cases heq : a = k
      · subst heq; by_cases hx : x = a <;> simp [Memory.write, Memory.lookup, hx]
      · by_cases hx : x = k
        · have : x ≠ a := fun h => heq (h.symm.trans hx)
          simp [Memory.write, Memory.lookup, hlt, heq, hx, Ne.symm heq]
        · simp [Memory.write, Memory.lookup, hlt, heq, hx, ih]

@[simp] theorem read_write_self (m : Memory) (a : Nat) (b : Byte) : Memory.read (Memory.write m a b) a = b := by
  simp [Memory.read, Memory.readWith, lookup_write]

theorem read_write_other (m : Memory) {a x : Nat} (b : Byte) (h : x ≠ a) :
    Memory.read (Memory.write m a b) x = Memory.read m x := by
  simp [Memory.read, Memory.readWith, lookup_write, h]

theorem read_write (m : Memory) (a : Nat) (b : Byte) (x : Nat) :
    Memory.read (Memory.write m a b) x = if x = a then b else Memory.read m x := by
  split
  · next h => subst h; exact read_write_self m x b
  · next h => exact read_write_other m b h

/-- All that `writeBytes` does to a read. -/
theorem read_writeBytes (bs : List Byte) : ∀ (m : Memory) (a x : Nat),
    Memory.read (Memory.writeBytes m a bs) x =
      if a ≤ x ∧ x < a + bs.length then byteAt bs (x - a) else Memory.read m x := by
  induction bs with
  | nil => intro m a x; simp [Memory.writeBytes]
  | cons b bs ih =>
    intro m a x
    rw [Memory.writeBytes, ih, read_write]
    by_cases hx : x = a
    · subst hx; simp [byteAt]
    · by_cases hlo : a < x
      · have e : x - a = (x - (a + 1)) + 1 := by omega
        have eb : byteAt (b :: bs) (x - a) = byteAt bs (x - (a + 1)) := by simp [e, byteAt]
        rw [if_neg hx, eb]
        by_cases c : a + 1 ≤ x ∧ x < a + 1 + bs.length
        · rw [if_pos c, if_pos (by simp only [List.length_cons]; omega)]
        · rw [if_neg c, if_neg (by simp only [List.length_cons]; omega)]
      · have c₁ : ¬(a + 1 ≤ x ∧ x < a + 1 + bs.length) := by omega
        have c₂ : ¬(a ≤ x ∧ x < a + (b :: bs).length) := by simp; omega
        rw [if_neg c₁, if_neg hx, if_neg c₂]

/-! ### Reading a range -/

@[simp] theorem length_readBytes (m : Memory) (a n : Nat) : (Memory.readBytes m a n).length = n := by
  simp [Memory.readBytes]

theorem byteAt_readBytes (m : Memory) (a : Nat) {n i : Nat} (h : i < n) :
    byteAt (Memory.readBytes m a n) i = Memory.read m (a + i) := by
  simp [byteAt, Memory.readBytes, h]

theorem readBytes_congr {m m' : Memory} {a n : Nat} (h : ∀ i, i < n → Memory.read m (a + i) = Memory.read m' (a + i)) :
    Memory.readBytes m a n = Memory.readBytes m' a n :=
  List.map_congr_left fun i hi => h i (List.mem_range.mp hi)

theorem readBytes_succ (m : Memory) (a n : Nat) :
    Memory.readBytes m a (n + 1) = Memory.readBytes m a n ++ [Memory.read m (a + n)] := by
  simp [Memory.readBytes, List.range_succ]

/-- A list of bytes that a range reads as, place by place, is that range. -/
theorem readBytes_eq (m : Memory) (a : Nat) (bs : List Byte)
    (h : ∀ i, i < bs.length → Memory.read m (a + i) = byteAt bs i) : Memory.readBytes m a bs.length = bs := by
  apply List.ext_getElem (by simp)
  intro i h₁ h₂
  have := h i h₂
  simpa [Memory.readBytes, byteAt, List.getD_eq_getElem?_getD, List.getElem?_eq_getElem h₂] using this

/-! ### The canonical form -/

theorem mem_write {m : Memory} {a : Nat} {b : Byte} {c : Host.Cell} (h : c ∈ Memory.write m a b) :
    c = (a, b) ∨ c ∈ m := by
  induction m with
  | nil => simpa [Memory.write] using h
  | cons d m ih =>
    obtain ⟨k, v⟩ := d
    rw [Memory.write] at h
    split at h
    · simpa using h
    · split at h
      · rcases List.mem_cons.mp h with h | h
        · exact .inl h
        · exact .inr (List.mem_cons_of_mem _ h)
      · rcases List.mem_cons.mp h with h | h
        · exact .inr (h ▸ List.mem_cons_self)
        · exact (ih h).imp_right (List.mem_cons_of_mem _)

theorem write_wf {m : Memory} (h : Memory.wf m) (a : Nat) (b : Byte) : Memory.wf (Memory.write m a b) := by
  induction m with
  | nil => simp [Memory.write, Memory.wf]
  | cons d m ih =>
    obtain ⟨k, v⟩ := d
    have hm := List.pairwise_cons.mp h
    rw [Memory.write]
    split
    · next hlt =>
      refine List.pairwise_cons.mpr ⟨fun c hc => ?_, h⟩
      rcases List.mem_cons.mp hc with rfl | hc
      · exact hlt
      · exact Nat.lt_trans hlt (hm.1 c hc)
    · split
      · next heq => subst heq; exact List.pairwise_cons.mpr ⟨hm.1, hm.2⟩
      · next hlt heq =>
        refine List.pairwise_cons.mpr ⟨fun c hc => ?_, ih hm.2⟩
        rcases mem_write hc with rfl | hc
        · show k < a; omega
        · exact hm.1 c hc

theorem writeBytes_wf (bs : List Byte) : ∀ {m : Memory}, Memory.wf m → ∀ a, Memory.wf (Memory.writeBytes m a bs) := by
  induction bs with
  | nil => intro m h a; exact h
  | cons b bs ih => intro m h a; exact ih (write_wf h a b) (a + 1)

theorem mem_writeBytes (bs : List Byte) : ∀ {m : Memory} {a : Nat} {c : Host.Cell},
    c ∈ Memory.writeBytes m a bs → (a ≤ c.1 ∧ c.1 < a + bs.length) ∨ c ∈ m := by
  induction bs with
  | nil => intro m a c h; exact .inr h
  | cons b bs ih =>
    intro m a c h
    rcases ih h with h | h
    · left; simp; omega
    · rcases mem_write h with rfl | h
      · left; simp
      · exact .inr h

/-! ### Where the buffers lie -/

theorem isBufferAddr_txParam {i : Nat} (h : i < 253) : isBufferAddr (Config.txParamBase + i) = true := by
  simp [isBufferAddr, indexIn, Config.txParamBase, Config.maxParams]; omega

theorem isBufferAddr_txFrame {i : Nat} (h : i < 259) : isBufferAddr (Config.txFrameBase + i) = true := by
  simp [isBufferAddr, indexIn, Config.txParamBase, Config.maxParams, Config.txFrameBase, Config.maxFrame,
    Config.rxFrameBase]; omega

theorem isBufferAddr_rxFrame {i : Nat} (h : i < 259) : isBufferAddr (Config.rxFrameBase + i) = true := by
  simp [isBufferAddr, indexIn, Config.txParamBase, Config.maxParams, Config.txFrameBase, Config.maxFrame,
    Config.rxFrameBase]; omega

theorem indexIn_some {base size n i : Nat} (h : indexIn base size n = some i) : n = base + i ∧ i < size := by
  unfold indexIn at h
  split at h
  · simp at h; omega
  · cases h

theorem indexIn_pos {base size n : Nat} (h : base ≤ n ∧ n < base + size) : indexIn base size n = some (n - base) :=
  if_pos h

theorem indexIn_neg {base size n : Nat} (h : ¬(base ≤ n ∧ n < base + size)) : indexIn base size n = none := if_neg h

/-- What `locate` answers, by the ranges of 20_memory.md R38. -/
theorem locate_cases (a : Addr) :
    (∃ r, locate a = .reg r ∧ r.addr = a ∧ a.toNat < 0x013) ∨
    (∃ i, locate a = .txParam i ∧ a.toNat = 0x100 + i ∧ i < 253) ∨
    (∃ i, locate a = .txFrame i ∧ a.toNat = 0x200 + i ∧ i < 259) ∨
    (∃ i, locate a = .rxFrame i ∧ a.toNat = 0x400 + i ∧ i < 259) ∨
    (locate a = .reserved ∧ 0x013 ≤ a.toNat ∧ ¬(0x100 ≤ a.toNat ∧ a.toNat < 0x1FD) ∧
      ¬(0x200 ≤ a.toNat ∧ a.toNat < 0x303) ∧ ¬(0x400 ≤ a.toNat ∧ a.toNat < 0x503)) := by
  by_cases hlt : a.toNat < 0x013
  · left
    have ha : a = BitVec.ofNat 12 a.toNat := by simp
    generalize a.toNat = n at hlt ha
    subst ha
    interval_cases n <;> exact ⟨_, rfl, rfl, by decide⟩
  · right
    have hr : regAt a.toNat = none := by
      generalize a.toNat = n at hlt
      unfold regAt; split <;> first | rfl | omega
    unfold locate
    rw [hr]
    by_cases h₁ : 0x100 ≤ a.toNat ∧ a.toNat < 0x100 + 253
    · have e : indexIn Config.txParamBase Config.maxParams a.toNat = some (a.toNat - 0x100) := indexIn_pos h₁
      rw [e]; left; exact ⟨_, rfl, by omega, by omega⟩
    have e₁ : indexIn Config.txParamBase Config.maxParams a.toNat = none := indexIn_neg h₁
    rw [e₁]
    by_cases h₂ : 0x200 ≤ a.toNat ∧ a.toNat < 0x200 + 259
    · have e : indexIn Config.txFrameBase Config.maxFrame a.toNat = some (a.toNat - 0x200) := indexIn_pos h₂
      rw [e]; right; left; exact ⟨_, rfl, by omega, by omega⟩
    have e₂ : indexIn Config.txFrameBase Config.maxFrame a.toNat = none := indexIn_neg h₂
    rw [e₂]
    by_cases h₃ : 0x400 ≤ a.toNat ∧ a.toNat < 0x400 + 259
    · have e : indexIn Config.rxFrameBase Config.maxFrame a.toNat = some (a.toNat - 0x400) := indexIn_pos h₃
      rw [e]; right; right; left; exact ⟨_, rfl, by omega, by omega⟩
    have e₃ : indexIn Config.rxFrameBase Config.maxFrame a.toNat = none := indexIn_neg h₃
    rw [e₃]; right; right; right; exact ⟨rfl, by omega, by omega, by omega, by omega⟩

end Sys2Proof.Machine
end

