-- ==== Sys2Proof/Laws/State.lean ====
section
/-! SUPPORT. What each named update of State leaves in each field, one lemma per field per update, so that no later
proof unfolds a record update. -/

namespace Sys2Proof.Machine

variable (s r : State)


/-! ### setOpErr -/

@[simp] theorem setOpErr_opErr (e : OpErr) : (s.setOpErr e).opErr = e := rfl
@[simp] theorem setOpErr_txStatus (e : OpErr) : (s.setOpErr e).txStatus = s.txStatus := rfl
@[simp] theorem setOpErr_rxStatus (e : OpErr) : (s.setOpErr e).rxStatus = s.rxStatus := rfl
@[simp] theorem setOpErr_txCmd (e : OpErr) : (s.setOpErr e).txCmd = s.txCmd := rfl
@[simp] theorem setOpErr_txCtrl (e : OpErr) : (s.setOpErr e).txCtrl = s.txCtrl := rfl
@[simp] theorem setOpErr_txPlen (e : OpErr) : (s.setOpErr e).txPlen = s.txPlen := rfl
@[simp] theorem setOpErr_txCsum (e : OpErr) : (s.setOpErr e).txCsum = s.txCsum := rfl
@[simp] theorem setOpErr_txFlen (e : OpErr) : (s.setOpErr e).txFlen = s.txFlen := rfl
@[simp] theorem setOpErr_txSent (e : OpErr) : (s.setOpErr e).txSent = s.txSent := rfl
@[simp] theorem setOpErr_rxNbytes (e : OpErr) : (s.setOpErr e).rxNbytes = s.rxNbytes := rfl
@[simp] theorem setOpErr_rxCount (e : OpErr) : (s.setOpErr e).rxCount = s.rxCount := rfl
@[simp] theorem setOpErr_rxLen (e : OpErr) : (s.setOpErr e).rxLen = s.rxLen := rfl
@[simp] theorem setOpErr_rxCmd (e : OpErr) : (s.setOpErr e).rxCmd = s.rxCmd := rfl
@[simp] theorem setOpErr_rxCtrl (e : OpErr) : (s.setOpErr e).rxCtrl = s.rxCtrl := rfl
@[simp] theorem setOpErr_rxPlen (e : OpErr) : (s.setOpErr e).rxPlen = s.rxPlen := rfl
@[simp] theorem setOpErr_rxCsumExp (e : OpErr) : (s.setOpErr e).rxCsumExp = s.rxCsumExp := rfl
@[simp] theorem setOpErr_rxCsumRcv (e : OpErr) : (s.setOpErr e).rxCsumRcv = s.rxCsumRcv := rfl
@[simp] theorem setOpErr_rxValid (e : OpErr) : (s.setOpErr e).rxValid = s.rxValid := rfl
@[simp] theorem setOpErr_phaseTx (e : OpErr) : (s.setOpErr e).phaseTx = s.phaseTx := rfl
@[simp] theorem setOpErr_phaseRx (e : OpErr) : (s.setOpErr e).phaseRx = s.phaseRx := rfl
@[simp] theorem setOpErr_rxNeed (e : OpErr) : (s.setOpErr e).rxNeed = s.rxNeed := rfl
@[simp] theorem setOpErr_mem (e : OpErr) : (s.setOpErr e).mem = s.mem := rfl
@[simp] theorem setOpErr_rxIn (e : OpErr) : (s.setOpErr e).rxIn = s.rxIn := rfl
@[simp] theorem setOpErr_rxInEnded (e : OpErr) : (s.setOpErr e).rxInEnded = s.rxInEnded := rfl
@[simp] theorem setOpErr_out (e : OpErr) : (s.setOpErr e).out = s.out := rfl
@[simp] theorem setOpErr_txAnswers (e : OpErr) : (s.setOpErr e).txAnswers = s.txAnswers := rfl
@[simp] theorem setOpErr_agenda (e : OpErr) : (s.setOpErr e).agenda = s.agenda := rfl
@[simp] theorem setOpErr_hostReads (e : OpErr) : (s.setOpErr e).hostReads = s.hostReads := rfl

/-! ### storeByte -/

@[simp] theorem storeByte_opErr (a : Nat) (b : Byte) : (s.storeByte a b).opErr = s.opErr := rfl
@[simp] theorem storeByte_txStatus (a : Nat) (b : Byte) : (s.storeByte a b).txStatus = s.txStatus := rfl
@[simp] theorem storeByte_rxStatus (a : Nat) (b : Byte) : (s.storeByte a b).rxStatus = s.rxStatus := rfl
@[simp] theorem storeByte_txCmd (a : Nat) (b : Byte) : (s.storeByte a b).txCmd = s.txCmd := rfl
@[simp] theorem storeByte_txCtrl (a : Nat) (b : Byte) : (s.storeByte a b).txCtrl = s.txCtrl := rfl
@[simp] theorem storeByte_txPlen (a : Nat) (b : Byte) : (s.storeByte a b).txPlen = s.txPlen := rfl
@[simp] theorem storeByte_txCsum (a : Nat) (b : Byte) : (s.storeByte a b).txCsum = s.txCsum := rfl
@[simp] theorem storeByte_txFlen (a : Nat) (b : Byte) : (s.storeByte a b).txFlen = s.txFlen := rfl
@[simp] theorem storeByte_txSent (a : Nat) (b : Byte) : (s.storeByte a b).txSent = s.txSent := rfl
@[simp] theorem storeByte_rxNbytes (a : Nat) (b : Byte) : (s.storeByte a b).rxNbytes = s.rxNbytes := rfl
@[simp] theorem storeByte_rxCount (a : Nat) (b : Byte) : (s.storeByte a b).rxCount = s.rxCount := rfl
@[simp] theorem storeByte_rxLen (a : Nat) (b : Byte) : (s.storeByte a b).rxLen = s.rxLen := rfl
@[simp] theorem storeByte_rxCmd (a : Nat) (b : Byte) : (s.storeByte a b).rxCmd = s.rxCmd := rfl
@[simp] theorem storeByte_rxCtrl (a : Nat) (b : Byte) : (s.storeByte a b).rxCtrl = s.rxCtrl := rfl
@[simp] theorem storeByte_rxPlen (a : Nat) (b : Byte) : (s.storeByte a b).rxPlen = s.rxPlen := rfl
@[simp] theorem storeByte_rxCsumExp (a : Nat) (b : Byte) : (s.storeByte a b).rxCsumExp = s.rxCsumExp := rfl
@[simp] theorem storeByte_rxCsumRcv (a : Nat) (b : Byte) : (s.storeByte a b).rxCsumRcv = s.rxCsumRcv := rfl
@[simp] theorem storeByte_rxValid (a : Nat) (b : Byte) : (s.storeByte a b).rxValid = s.rxValid := rfl
@[simp] theorem storeByte_phaseTx (a : Nat) (b : Byte) : (s.storeByte a b).phaseTx = s.phaseTx := rfl
@[simp] theorem storeByte_phaseRx (a : Nat) (b : Byte) : (s.storeByte a b).phaseRx = s.phaseRx := rfl
@[simp] theorem storeByte_rxNeed (a : Nat) (b : Byte) : (s.storeByte a b).rxNeed = s.rxNeed := rfl
@[simp] theorem storeByte_mem (a : Nat) (b : Byte) : (s.storeByte a b).mem = Memory.write s.mem a b := rfl
@[simp] theorem storeByte_rxIn (a : Nat) (b : Byte) : (s.storeByte a b).rxIn = s.rxIn := rfl
@[simp] theorem storeByte_rxInEnded (a : Nat) (b : Byte) : (s.storeByte a b).rxInEnded = s.rxInEnded := rfl
@[simp] theorem storeByte_out (a : Nat) (b : Byte) : (s.storeByte a b).out = s.out := rfl
@[simp] theorem storeByte_txAnswers (a : Nat) (b : Byte) : (s.storeByte a b).txAnswers = s.txAnswers := rfl
@[simp] theorem storeByte_agenda (a : Nat) (b : Byte) : (s.storeByte a b).agenda = s.agenda := rfl
@[simp] theorem storeByte_hostReads (a : Nat) (b : Byte) : (s.storeByte a b).hostReads = s.hostReads := rfl

/-! ### emit -/

@[simp] theorem emit_opErr (b : Byte) : (s.emit b).opErr = s.opErr := rfl
@[simp] theorem emit_txStatus (b : Byte) : (s.emit b).txStatus = s.txStatus := rfl
@[simp] theorem emit_rxStatus (b : Byte) : (s.emit b).rxStatus = s.rxStatus := rfl
@[simp] theorem emit_txCmd (b : Byte) : (s.emit b).txCmd = s.txCmd := rfl
@[simp] theorem emit_txCtrl (b : Byte) : (s.emit b).txCtrl = s.txCtrl := rfl
@[simp] theorem emit_txPlen (b : Byte) : (s.emit b).txPlen = s.txPlen := rfl
@[simp] theorem emit_txCsum (b : Byte) : (s.emit b).txCsum = s.txCsum := rfl
@[simp] theorem emit_txFlen (b : Byte) : (s.emit b).txFlen = s.txFlen := rfl
@[simp] theorem emit_txSent (b : Byte) : (s.emit b).txSent = s.txSent := rfl
@[simp] theorem emit_rxNbytes (b : Byte) : (s.emit b).rxNbytes = s.rxNbytes := rfl
@[simp] theorem emit_rxCount (b : Byte) : (s.emit b).rxCount = s.rxCount := rfl
@[simp] theorem emit_rxLen (b : Byte) : (s.emit b).rxLen = s.rxLen := rfl
@[simp] theorem emit_rxCmd (b : Byte) : (s.emit b).rxCmd = s.rxCmd := rfl
@[simp] theorem emit_rxCtrl (b : Byte) : (s.emit b).rxCtrl = s.rxCtrl := rfl
@[simp] theorem emit_rxPlen (b : Byte) : (s.emit b).rxPlen = s.rxPlen := rfl
@[simp] theorem emit_rxCsumExp (b : Byte) : (s.emit b).rxCsumExp = s.rxCsumExp := rfl
@[simp] theorem emit_rxCsumRcv (b : Byte) : (s.emit b).rxCsumRcv = s.rxCsumRcv := rfl
@[simp] theorem emit_rxValid (b : Byte) : (s.emit b).rxValid = s.rxValid := rfl
@[simp] theorem emit_phaseTx (b : Byte) : (s.emit b).phaseTx = s.phaseTx := rfl
@[simp] theorem emit_phaseRx (b : Byte) : (s.emit b).phaseRx = s.phaseRx := rfl
@[simp] theorem emit_rxNeed (b : Byte) : (s.emit b).rxNeed = s.rxNeed := rfl
@[simp] theorem emit_mem (b : Byte) : (s.emit b).mem = s.mem := rfl
@[simp] theorem emit_rxIn (b : Byte) : (s.emit b).rxIn = s.rxIn := rfl
@[simp] theorem emit_rxInEnded (b : Byte) : (s.emit b).rxInEnded = s.rxInEnded := rfl
@[simp] theorem emit_out (b : Byte) : (s.emit b).out = s.out ++ [b] := rfl
@[simp] theorem emit_txAnswers (b : Byte) : (s.emit b).txAnswers = s.txAnswers := rfl
@[simp] theorem emit_agenda (b : Byte) : (s.emit b).agenda = s.agenda := rfl
@[simp] theorem emit_hostReads (b : Byte) : (s.emit b).hostReads = s.hostReads := rfl

/-! ### raise -/

@[simp] theorem raise_opErr (g : Engine) (e : ErrorKind) : (raise g e s).opErr = s.opErr := by cases g <;> rfl
@[simp] theorem raise_tx_txStatus (e : ErrorKind) : (raise .tx e s).txStatus = e.status := rfl
@[simp] theorem raise_rx_txStatus (e : ErrorKind) : (raise .rx e s).txStatus = s.txStatus := rfl
@[simp] theorem raise_rx_rxStatus (e : ErrorKind) : (raise .rx e s).rxStatus = e.status := rfl
@[simp] theorem raise_tx_rxStatus (e : ErrorKind) : (raise .tx e s).rxStatus = s.rxStatus := rfl
@[simp] theorem raise_txCmd (g : Engine) (e : ErrorKind) : (raise g e s).txCmd = s.txCmd := by cases g <;> rfl
@[simp] theorem raise_txCtrl (g : Engine) (e : ErrorKind) : (raise g e s).txCtrl = s.txCtrl := by cases g <;> rfl
@[simp] theorem raise_txPlen (g : Engine) (e : ErrorKind) : (raise g e s).txPlen = s.txPlen := by cases g <;> rfl
@[simp] theorem raise_txCsum (g : Engine) (e : ErrorKind) : (raise g e s).txCsum = s.txCsum := by cases g <;> rfl
@[simp] theorem raise_txFlen (g : Engine) (e : ErrorKind) : (raise g e s).txFlen = s.txFlen := by cases g <;> rfl
@[simp] theorem raise_txSent (g : Engine) (e : ErrorKind) : (raise g e s).txSent = s.txSent := by cases g <;> rfl
@[simp] theorem raise_rxNbytes (g : Engine) (e : ErrorKind) : (raise g e s).rxNbytes = s.rxNbytes := by cases g <;> rfl
@[simp] theorem raise_rxCount (g : Engine) (e : ErrorKind) : (raise g e s).rxCount = s.rxCount := by cases g <;> rfl
@[simp] theorem raise_rxLen (g : Engine) (e : ErrorKind) : (raise g e s).rxLen = s.rxLen := by cases g <;> rfl
@[simp] theorem raise_rxCmd (g : Engine) (e : ErrorKind) : (raise g e s).rxCmd = s.rxCmd := by cases g <;> rfl
@[simp] theorem raise_rxCtrl (g : Engine) (e : ErrorKind) : (raise g e s).rxCtrl = s.rxCtrl := by cases g <;> rfl
@[simp] theorem raise_rxPlen (g : Engine) (e : ErrorKind) : (raise g e s).rxPlen = s.rxPlen := by cases g <;> rfl
@[simp] theorem raise_rxCsumExp (g : Engine) (e : ErrorKind) : (raise g e s).rxCsumExp = s.rxCsumExp := by cases g <;> rfl
@[simp] theorem raise_rxCsumRcv (g : Engine) (e : ErrorKind) : (raise g e s).rxCsumRcv = s.rxCsumRcv := by cases g <;> rfl
@[simp] theorem raise_rxValid (g : Engine) (e : ErrorKind) : (raise g e s).rxValid = s.rxValid := by cases g <;> rfl
@[simp] theorem raise_phaseTx (g : Engine) (e : ErrorKind) : (raise g e s).phaseTx = s.phaseTx := by cases g <;> rfl
@[simp] theorem raise_phaseRx (g : Engine) (e : ErrorKind) : (raise g e s).phaseRx = s.phaseRx := by cases g <;> rfl
@[simp] theorem raise_rxNeed (g : Engine) (e : ErrorKind) : (raise g e s).rxNeed = s.rxNeed := by cases g <;> rfl
@[simp] theorem raise_mem (g : Engine) (e : ErrorKind) : (raise g e s).mem = s.mem := by cases g <;> rfl
@[simp] theorem raise_rxIn (g : Engine) (e : ErrorKind) : (raise g e s).rxIn = s.rxIn := by cases g <;> rfl
@[simp] theorem raise_rxInEnded (g : Engine) (e : ErrorKind) : (raise g e s).rxInEnded = s.rxInEnded := by cases g <;> rfl
@[simp] theorem raise_out (g : Engine) (e : ErrorKind) : (raise g e s).out = s.out := by cases g <;> rfl
@[simp] theorem raise_txAnswers (g : Engine) (e : ErrorKind) : (raise g e s).txAnswers = s.txAnswers := by cases g <;> rfl
@[simp] theorem raise_agenda (g : Engine) (e : ErrorKind) : (raise g e s).agenda = s.agenda := by cases g <;> rfl
@[simp] theorem raise_hostReads (g : Engine) (e : ErrorKind) : (raise g e s).hostReads = s.hostReads := by cases g <;> rfl

/-! ### clearMessage -/

@[simp] theorem clearMessage_opErr : (clearMessage s).opErr = s.opErr := rfl
@[simp] theorem clearMessage_txStatus : (clearMessage s).txStatus = s.txStatus := rfl
@[simp] theorem clearMessage_rxStatus : (clearMessage s).rxStatus = s.rxStatus := rfl
@[simp] theorem clearMessage_txCmd : (clearMessage s).txCmd = s.txCmd := rfl
@[simp] theorem clearMessage_txCtrl : (clearMessage s).txCtrl = s.txCtrl := rfl
@[simp] theorem clearMessage_txPlen : (clearMessage s).txPlen = s.txPlen := rfl
@[simp] theorem clearMessage_txCsum : (clearMessage s).txCsum = s.txCsum := rfl
@[simp] theorem clearMessage_txFlen : (clearMessage s).txFlen = s.txFlen := rfl
@[simp] theorem clearMessage_txSent : (clearMessage s).txSent = s.txSent := rfl
@[simp] theorem clearMessage_rxNbytes : (clearMessage s).rxNbytes = s.rxNbytes := rfl
@[simp] theorem clearMessage_rxCount : (clearMessage s).rxCount = s.rxCount := rfl
@[simp] theorem clearMessage_rxLen : (clearMessage s).rxLen = 0#8 := rfl
@[simp] theorem clearMessage_rxCmd : (clearMessage s).rxCmd = 0#8 := rfl
@[simp] theorem clearMessage_rxCtrl : (clearMessage s).rxCtrl = 0#8 := rfl
@[simp] theorem clearMessage_rxPlen : (clearMessage s).rxPlen = 0#8 := rfl
@[simp] theorem clearMessage_rxCsumExp : (clearMessage s).rxCsumExp = 0#8 := rfl
@[simp] theorem clearMessage_rxCsumRcv : (clearMessage s).rxCsumRcv = 0#8 := rfl
@[simp] theorem clearMessage_rxValid : (clearMessage s).rxValid = false := rfl
@[simp] theorem clearMessage_phaseTx : (clearMessage s).phaseTx = s.phaseTx := rfl
@[simp] theorem clearMessage_phaseRx : (clearMessage s).phaseRx = s.phaseRx := rfl
@[simp] theorem clearMessage_rxNeed : (clearMessage s).rxNeed = s.rxNeed := rfl
@[simp] theorem clearMessage_mem : (clearMessage s).mem = s.mem := rfl
@[simp] theorem clearMessage_rxIn : (clearMessage s).rxIn = s.rxIn := rfl
@[simp] theorem clearMessage_rxInEnded : (clearMessage s).rxInEnded = s.rxInEnded := rfl
@[simp] theorem clearMessage_out : (clearMessage s).out = s.out := rfl
@[simp] theorem clearMessage_txAnswers : (clearMessage s).txAnswers = s.txAnswers := rfl
@[simp] theorem clearMessage_agenda : (clearMessage s).agenda = s.agenda := rfl
@[simp] theorem clearMessage_hostReads : (clearMessage s).hostReads = s.hostReads := rfl

/-! ### publish: what it leaves alone -/

theorem publish_leaves (q : Except DecodeFailure Message) : withMessageOf s (publish q s) = s := by
  unfold publish; split <;> rfl

@[simp] theorem publish_opErr (q : Except DecodeFailure Message) : (publish q s).opErr = s.opErr :=
  (congrArg State.opErr (publish_leaves s q) :)
@[simp] theorem publish_txStatus (q : Except DecodeFailure Message) : (publish q s).txStatus = s.txStatus :=
  (congrArg State.txStatus (publish_leaves s q) :)
@[simp] theorem publish_txCmd (q : Except DecodeFailure Message) : (publish q s).txCmd = s.txCmd :=
  (congrArg State.txCmd (publish_leaves s q) :)
@[simp] theorem publish_txCtrl (q : Except DecodeFailure Message) : (publish q s).txCtrl = s.txCtrl :=
  (congrArg State.txCtrl (publish_leaves s q) :)
@[simp] theorem publish_txPlen (q : Except DecodeFailure Message) : (publish q s).txPlen = s.txPlen :=
  (congrArg State.txPlen (publish_leaves s q) :)
@[simp] theorem publish_txCsum (q : Except DecodeFailure Message) : (publish q s).txCsum = s.txCsum :=
  (congrArg State.txCsum (publish_leaves s q) :)
@[simp] theorem publish_txFlen (q : Except DecodeFailure Message) : (publish q s).txFlen = s.txFlen :=
  (congrArg State.txFlen (publish_leaves s q) :)
@[simp] theorem publish_txSent (q : Except DecodeFailure Message) : (publish q s).txSent = s.txSent :=
  (congrArg State.txSent (publish_leaves s q) :)
@[simp] theorem publish_rxNbytes (q : Except DecodeFailure Message) : (publish q s).rxNbytes = s.rxNbytes :=
  (congrArg State.rxNbytes (publish_leaves s q) :)
@[simp] theorem publish_rxCount (q : Except DecodeFailure Message) : (publish q s).rxCount = s.rxCount :=
  (congrArg State.rxCount (publish_leaves s q) :)
@[simp] theorem publish_phaseTx (q : Except DecodeFailure Message) : (publish q s).phaseTx = s.phaseTx :=
  (congrArg State.phaseTx (publish_leaves s q) :)
@[simp] theorem publish_phaseRx (q : Except DecodeFailure Message) : (publish q s).phaseRx = s.phaseRx :=
  (congrArg State.phaseRx (publish_leaves s q) :)
@[simp] theorem publish_rxNeed (q : Except DecodeFailure Message) : (publish q s).rxNeed = s.rxNeed :=
  (congrArg State.rxNeed (publish_leaves s q) :)
@[simp] theorem publish_mem (q : Except DecodeFailure Message) : (publish q s).mem = s.mem :=
  (congrArg State.mem (publish_leaves s q) :)
@[simp] theorem publish_rxIn (q : Except DecodeFailure Message) : (publish q s).rxIn = s.rxIn :=
  (congrArg State.rxIn (publish_leaves s q) :)
@[simp] theorem publish_rxInEnded (q : Except DecodeFailure Message) : (publish q s).rxInEnded = s.rxInEnded :=
  (congrArg State.rxInEnded (publish_leaves s q) :)
@[simp] theorem publish_out (q : Except DecodeFailure Message) : (publish q s).out = s.out :=
  (congrArg State.out (publish_leaves s q) :)
@[simp] theorem publish_txAnswers (q : Except DecodeFailure Message) : (publish q s).txAnswers = s.txAnswers :=
  (congrArg State.txAnswers (publish_leaves s q) :)
@[simp] theorem publish_agenda (q : Except DecodeFailure Message) : (publish q s).agenda = s.agenda :=
  (congrArg State.agenda (publish_leaves s q) :)
@[simp] theorem publish_hostReads (q : Except DecodeFailure Message) : (publish q s).hostReads = s.hostReads :=
  (congrArg State.hostReads (publish_leaves s q) :)

/-! ### resetRegisters -/

@[simp] theorem resetRegisters_opErr : (resetRegisters s).opErr = State.reset.opErr := rfl
@[simp] theorem resetRegisters_txStatus : (resetRegisters s).txStatus = State.reset.txStatus := rfl
@[simp] theorem resetRegisters_rxStatus : (resetRegisters s).rxStatus = State.reset.rxStatus := rfl
@[simp] theorem resetRegisters_txCmd : (resetRegisters s).txCmd = State.reset.txCmd := rfl
@[simp] theorem resetRegisters_txCtrl : (resetRegisters s).txCtrl = State.reset.txCtrl := rfl
@[simp] theorem resetRegisters_txPlen : (resetRegisters s).txPlen = State.reset.txPlen := rfl
@[simp] theorem resetRegisters_txCsum : (resetRegisters s).txCsum = State.reset.txCsum := rfl
@[simp] theorem resetRegisters_txFlen : (resetRegisters s).txFlen = State.reset.txFlen := rfl
@[simp] theorem resetRegisters_txSent : (resetRegisters s).txSent = State.reset.txSent := rfl
@[simp] theorem resetRegisters_rxNbytes : (resetRegisters s).rxNbytes = State.reset.rxNbytes := rfl
@[simp] theorem resetRegisters_rxCount : (resetRegisters s).rxCount = State.reset.rxCount := rfl
@[simp] theorem resetRegisters_rxLen : (resetRegisters s).rxLen = State.reset.rxLen := rfl
@[simp] theorem resetRegisters_rxCmd : (resetRegisters s).rxCmd = State.reset.rxCmd := rfl
@[simp] theorem resetRegisters_rxCtrl : (resetRegisters s).rxCtrl = State.reset.rxCtrl := rfl
@[simp] theorem resetRegisters_rxPlen : (resetRegisters s).rxPlen = State.reset.rxPlen := rfl
@[simp] theorem resetRegisters_rxCsumExp : (resetRegisters s).rxCsumExp = State.reset.rxCsumExp := rfl
@[simp] theorem resetRegisters_rxCsumRcv : (resetRegisters s).rxCsumRcv = State.reset.rxCsumRcv := rfl
@[simp] theorem resetRegisters_rxValid : (resetRegisters s).rxValid = State.reset.rxValid := rfl
@[simp] theorem resetRegisters_phaseTx : (resetRegisters s).phaseTx = State.reset.phaseTx := rfl
@[simp] theorem resetRegisters_phaseRx : (resetRegisters s).phaseRx = State.reset.phaseRx := rfl
@[simp] theorem resetRegisters_rxNeed : (resetRegisters s).rxNeed = State.reset.rxNeed := rfl
@[simp] theorem resetRegisters_mem : (resetRegisters s).mem = s.mem := rfl
@[simp] theorem resetRegisters_rxIn : (resetRegisters s).rxIn = s.rxIn := rfl
@[simp] theorem resetRegisters_rxInEnded : (resetRegisters s).rxInEnded = s.rxInEnded := rfl
@[simp] theorem resetRegisters_out : (resetRegisters s).out = s.out := rfl
@[simp] theorem resetRegisters_txAnswers : (resetRegisters s).txAnswers = s.txAnswers := rfl
@[simp] theorem resetRegisters_agenda : (resetRegisters s).agenda = s.agenda := rfl
@[simp] theorem resetRegisters_hostReads : (resetRegisters s).hostReads = s.hostReads := rfl

/-! ### scheduled -/

@[simp] theorem scheduled_opErr (xs : List Action) : (s.scheduled xs).opErr = s.opErr := rfl
@[simp] theorem scheduled_txStatus (xs : List Action) : (s.scheduled xs).txStatus = s.txStatus := rfl
@[simp] theorem scheduled_rxStatus (xs : List Action) : (s.scheduled xs).rxStatus = s.rxStatus := rfl
@[simp] theorem scheduled_txCmd (xs : List Action) : (s.scheduled xs).txCmd = s.txCmd := rfl
@[simp] theorem scheduled_txCtrl (xs : List Action) : (s.scheduled xs).txCtrl = s.txCtrl := rfl
@[simp] theorem scheduled_txPlen (xs : List Action) : (s.scheduled xs).txPlen = s.txPlen := rfl
@[simp] theorem scheduled_txCsum (xs : List Action) : (s.scheduled xs).txCsum = s.txCsum := rfl
@[simp] theorem scheduled_txFlen (xs : List Action) : (s.scheduled xs).txFlen = s.txFlen := rfl
@[simp] theorem scheduled_txSent (xs : List Action) : (s.scheduled xs).txSent = s.txSent := rfl
@[simp] theorem scheduled_rxNbytes (xs : List Action) : (s.scheduled xs).rxNbytes = s.rxNbytes := rfl
@[simp] theorem scheduled_rxCount (xs : List Action) : (s.scheduled xs).rxCount = s.rxCount := rfl
@[simp] theorem scheduled_rxLen (xs : List Action) : (s.scheduled xs).rxLen = s.rxLen := rfl
@[simp] theorem scheduled_rxCmd (xs : List Action) : (s.scheduled xs).rxCmd = s.rxCmd := rfl
@[simp] theorem scheduled_rxCtrl (xs : List Action) : (s.scheduled xs).rxCtrl = s.rxCtrl := rfl
@[simp] theorem scheduled_rxPlen (xs : List Action) : (s.scheduled xs).rxPlen = s.rxPlen := rfl
@[simp] theorem scheduled_rxCsumExp (xs : List Action) : (s.scheduled xs).rxCsumExp = s.rxCsumExp := rfl
@[simp] theorem scheduled_rxCsumRcv (xs : List Action) : (s.scheduled xs).rxCsumRcv = s.rxCsumRcv := rfl
@[simp] theorem scheduled_rxValid (xs : List Action) : (s.scheduled xs).rxValid = s.rxValid := rfl
@[simp] theorem scheduled_phaseTx (xs : List Action) : (s.scheduled xs).phaseTx = s.phaseTx := rfl
@[simp] theorem scheduled_phaseRx (xs : List Action) : (s.scheduled xs).phaseRx = s.phaseRx := rfl
@[simp] theorem scheduled_rxNeed (xs : List Action) : (s.scheduled xs).rxNeed = s.rxNeed := rfl
@[simp] theorem scheduled_mem (xs : List Action) : (s.scheduled xs).mem = s.mem := rfl
@[simp] theorem scheduled_rxIn (xs : List Action) : (s.scheduled xs).rxIn = s.rxIn := rfl
@[simp] theorem scheduled_rxInEnded (xs : List Action) : (s.scheduled xs).rxInEnded = s.rxInEnded := rfl
@[simp] theorem scheduled_out (xs : List Action) : (s.scheduled xs).out = s.out := rfl
@[simp] theorem scheduled_txAnswers (xs : List Action) : (s.scheduled xs).txAnswers = s.txAnswers := rfl
@[simp] theorem scheduled_agenda (xs : List Action) : (s.scheduled xs).agenda = xs := rfl
@[simp] theorem scheduled_hostReads (xs : List Action) : (s.scheduled xs).hostReads = s.hostReads := rfl

/-! ### rxStored -/

@[simp] theorem rxStored_opErr (b : Byte) : (rxStored b s).opErr = s.opErr := rfl
@[simp] theorem rxStored_txStatus (b : Byte) : (rxStored b s).txStatus = s.txStatus := rfl
@[simp] theorem rxStored_rxStatus (b : Byte) : (rxStored b s).rxStatus = s.rxStatus := rfl
@[simp] theorem rxStored_txCmd (b : Byte) : (rxStored b s).txCmd = s.txCmd := rfl
@[simp] theorem rxStored_txCtrl (b : Byte) : (rxStored b s).txCtrl = s.txCtrl := rfl
@[simp] theorem rxStored_txPlen (b : Byte) : (rxStored b s).txPlen = s.txPlen := rfl
@[simp] theorem rxStored_txCsum (b : Byte) : (rxStored b s).txCsum = s.txCsum := rfl
@[simp] theorem rxStored_txFlen (b : Byte) : (rxStored b s).txFlen = s.txFlen := rfl
@[simp] theorem rxStored_txSent (b : Byte) : (rxStored b s).txSent = s.txSent := rfl
@[simp] theorem rxStored_rxNbytes (b : Byte) : (rxStored b s).rxNbytes = s.rxNbytes := rfl
@[simp] theorem rxStored_rxCount (b : Byte) : (rxStored b s).rxCount = s.rxCount + 1#9 := rfl
@[simp] theorem rxStored_rxLen (b : Byte) : (rxStored b s).rxLen = s.rxLen := rfl
@[simp] theorem rxStored_rxCmd (b : Byte) : (rxStored b s).rxCmd = s.rxCmd := rfl
@[simp] theorem rxStored_rxCtrl (b : Byte) : (rxStored b s).rxCtrl = s.rxCtrl := rfl
@[simp] theorem rxStored_rxPlen (b : Byte) : (rxStored b s).rxPlen = s.rxPlen := rfl
@[simp] theorem rxStored_rxCsumExp (b : Byte) : (rxStored b s).rxCsumExp = s.rxCsumExp := rfl
@[simp] theorem rxStored_rxCsumRcv (b : Byte) : (rxStored b s).rxCsumRcv = s.rxCsumRcv := rfl
@[simp] theorem rxStored_rxValid (b : Byte) : (rxStored b s).rxValid = s.rxValid := rfl
@[simp] theorem rxStored_phaseTx (b : Byte) : (rxStored b s).phaseTx = s.phaseTx := rfl
@[simp] theorem rxStored_phaseRx (b : Byte) : (rxStored b s).phaseRx = s.phaseRx := rfl
@[simp] theorem rxStored_rxNeed (b : Byte) : (rxStored b s).rxNeed = needAfter b (s.rxCount + 1#9) s.rxNeed := rfl
@[simp] theorem rxStored_mem (b : Byte) : (rxStored b s).mem = Memory.write s.mem (Config.rxFrameBase + s.rxCount.toNat) b := rfl
@[simp] theorem rxStored_rxIn (b : Byte) : (rxStored b s).rxIn = s.rxIn := rfl
@[simp] theorem rxStored_rxInEnded (b : Byte) : (rxStored b s).rxInEnded = s.rxInEnded := rfl
@[simp] theorem rxStored_out (b : Byte) : (rxStored b s).out = s.out := rfl
@[simp] theorem rxStored_txAnswers (b : Byte) : (rxStored b s).txAnswers = s.txAnswers := rfl
@[simp] theorem rxStored_agenda (b : Byte) : (rxStored b s).agenda = s.agenda := rfl
@[simp] theorem rxStored_hostReads (b : Byte) : (rxStored b s).hostReads = s.hostReads := rfl

/-! ### txErrored -/

@[simp] theorem txErrored_opErr : (txErrored s).opErr = s.opErr := rfl
@[simp] theorem txErrored_txStatus : (txErrored s).txStatus = .transportFailure := rfl
@[simp] theorem txErrored_rxStatus : (txErrored s).rxStatus = s.rxStatus := rfl
@[simp] theorem txErrored_txCmd : (txErrored s).txCmd = s.txCmd := rfl
@[simp] theorem txErrored_txCtrl : (txErrored s).txCtrl = s.txCtrl := rfl
@[simp] theorem txErrored_txPlen : (txErrored s).txPlen = s.txPlen := rfl
@[simp] theorem txErrored_txCsum : (txErrored s).txCsum = s.txCsum := rfl
@[simp] theorem txErrored_txFlen : (txErrored s).txFlen = s.txFlen := rfl
@[simp] theorem txErrored_txSent : (txErrored s).txSent = s.txSent := rfl
@[simp] theorem txErrored_rxNbytes : (txErrored s).rxNbytes = s.rxNbytes := rfl
@[simp] theorem txErrored_rxCount : (txErrored s).rxCount = s.rxCount := rfl
@[simp] theorem txErrored_rxLen : (txErrored s).rxLen = s.rxLen := rfl
@[simp] theorem txErrored_rxCmd : (txErrored s).rxCmd = s.rxCmd := rfl
@[simp] theorem txErrored_rxCtrl : (txErrored s).rxCtrl = s.rxCtrl := rfl
@[simp] theorem txErrored_rxPlen : (txErrored s).rxPlen = s.rxPlen := rfl
@[simp] theorem txErrored_rxCsumExp : (txErrored s).rxCsumExp = s.rxCsumExp := rfl
@[simp] theorem txErrored_rxCsumRcv : (txErrored s).rxCsumRcv = s.rxCsumRcv := rfl
@[simp] theorem txErrored_rxValid : (txErrored s).rxValid = s.rxValid := rfl
@[simp] theorem txErrored_phaseTx : (txErrored s).phaseTx = .failed := rfl
@[simp] theorem txErrored_phaseRx : (txErrored s).phaseRx = s.phaseRx := rfl
@[simp] theorem txErrored_rxNeed : (txErrored s).rxNeed = s.rxNeed := rfl
@[simp] theorem txErrored_mem : (txErrored s).mem = s.mem := rfl
@[simp] theorem txErrored_rxIn : (txErrored s).rxIn = s.rxIn := rfl
@[simp] theorem txErrored_rxInEnded : (txErrored s).rxInEnded = s.rxInEnded := rfl
@[simp] theorem txErrored_out : (txErrored s).out = s.out := rfl
@[simp] theorem txErrored_txAnswers : (txErrored s).txAnswers = s.txAnswers := rfl
@[simp] theorem txErrored_agenda : (txErrored s).agenda = s.agenda := rfl
@[simp] theorem txErrored_hostReads : (txErrored s).hostReads = s.hostReads := rfl

end Sys2Proof.Machine
end

