-- ==== Sys2Proof/Laws/Exec.lean ====
section
/-! SUPPORT. Each shared operation and each operation's meaning said once: if it answers a next state, which one. -/

namespace Sys2Proof.Machine

variable {s t : State}

/-! ### Accepting an operation -/

theorem acceptTx_idle (h : s.phaseTx = .idle) (op : State → Result) :
    acceptTx s op = op (s.setOpErr .accepted) := by simp [acceptTx, h]

theorem acceptTx_send (h : s.phaseTx = .send) (op : State → Result) :
    acceptTx s op = .next (s.setOpErr .engineBusy) := by simp [acceptTx, h]

theorem acceptTx_failed (h : s.phaseTx = .failed) (op : State → Result) :
    acceptTx s op = .next (s.setOpErr .engineFailed) := by simp [acceptTx, h]

/-- An operation of the transmit engine is either run, OPERR being 0, or changes OPERR alone. -/
theorem acceptTx_cases {op : State → Result} (h : acceptTx s op = .next t) :
    (s.phaseTx = .idle ∧ op (s.setOpErr .accepted) = .next t) ∨
      (s.phaseTx ≠ .idle ∧ ∃ e, t = s.setOpErr e) := by
  unfold acceptTx at h
  split at h
  · exact .inr ⟨by simp_all, _, (Host.Outcome.next.inj h).symm⟩
  · exact .inr ⟨by simp_all, _, (Host.Outcome.next.inj h).symm⟩
  · exact .inl ⟨‹_›, h⟩

theorem acceptRx_idle (h : s.phaseRx = .idle) (op : State → Result) :
    acceptRx s op = op (s.setOpErr .accepted) := by simp [acceptRx, h]

theorem acceptRx_recv (h : s.phaseRx = .recv) (op : State → Result) :
    acceptRx s op = .next (s.setOpErr .engineBusy) := by simp [acceptRx, h]

theorem acceptRx_failed (h : s.phaseRx = .failed) (op : State → Result) :
    acceptRx s op = .next (s.setOpErr .engineFailed) := by simp [acceptRx, h]

/-- An operation of the receive engine is either run, OPERR being 0, or changes OPERR alone. -/
theorem acceptRx_cases {op : State → Result} (h : acceptRx s op = .next t) :
    (s.phaseRx = .idle ∧ op (s.setOpErr .accepted) = .next t) ∨
      (s.phaseRx ≠ .idle ∧ ∃ e, t = s.setOpErr e) := by
  unfold acceptRx at h
  split at h
  · exact .inr ⟨by simp_all, _, (Host.Outcome.next.inj h).symm⟩
  · exact .inr ⟨by simp_all, _, (Host.Outcome.next.inj h).symm⟩
  · exact .inl ⟨‹_›, h⟩

/-- A TX operation that finds its engine busy or failed is rejected (43_control.md R87). -/
theorem acceptTx_not_idle (h : s.phaseTx ≠ .idle) (op : State → Result) :
    ∃ e, e ≠ .accepted ∧ acceptTx s op = .next (s.setOpErr e) := by
  rcases hp : s.phaseTx with _ | _ | _
  · exact absurd hp h
  · exact ⟨_, by decide, acceptTx_send hp op⟩
  · exact ⟨_, by decide, acceptTx_failed hp op⟩

/-- An RX operation that finds its engine busy or failed is rejected (43_control.md R87). -/
theorem acceptRx_not_idle (h : s.phaseRx ≠ .idle) (op : State → Result) :
    ∃ e, e ≠ .accepted ∧ acceptRx s op = .next (s.setOpErr e) := by
  rcases hp : s.phaseRx with _ | _ | _
  · exact absurd hp h
  · exact ⟨_, by decide, acceptRx_recv hp op⟩
  · exact ⟨_, by decide, acceptRx_failed hp op⟩

/-! ### Publishing a decode -/

/-- `publish` leaves the state with exactly the published registers (40_frame_codec.md R69). -/
theorem published_publish (q : Except DecodeFailure Message) (s : State) : Published q (publish q s) := by
  unfold publish
  split <;> simp [Published, NoMessage, ErrorKind.status]

/-- The published registers do not depend on the state they are written over. -/
theorem publish_publish (q : Except DecodeFailure Message) (s : State) : publish q (publish q s) = publish q s := by
  unfold publish; split <;> rfl

/-! ### The operations -/

/-- ENCODE with P <= 253 (40_frame_codec.md R70). -/
theorem encodeOp_ok (h : plen s ≤ 253) :
    encodeOp s = .next
      { s with
        mem := Memory.writeBytes s.mem Config.txFrameBase (frameBytes s.txCmd s.txCtrl (txParams s))
        txFlen := BitVec.ofNat 9 (6 + plen s)
        txCsum := checksum s.txCmd s.txCtrl (txParams s)
        txStatus := .ok } := by
  have hl : (txParams s).length = plen s := by simp [txParams]
  have e : encodeFrame s.txCmd s.txCtrl (txParams s) = .ok (frameBytes s.txCmd s.txCtrl (txParams s)) := by
    simp [encodeFrame, hl, Config.maxParams, h]
  have c : byteAt (frameBytes s.txCmd s.txCtrl (txParams s)) (5 + plen s) = checksum s.txCmd s.txCtrl (txParams s) :=
    hl ▸ byteAt_frameBytes_checksum s.txCmd s.txCtrl (txParams s)
  unfold encodeOp
  rw [if_neg (by simp [Config.maxParams, h]), e]
  simp only [c]

/-- ENCODE with P > 253 (40_frame_codec.md R70). -/
theorem encodeOp_tooLong (h : 253 < plen s) :
    encodeOp s = .next { s with txFlen := 0#9, txStatus := .paramsTooLong } := by
  unfold encodeOp; rw [if_pos (by simpa [Config.maxParams] using h)]; rfl

/-- CHECKSUM with P <= 253 (41_checksum.md R76). -/
theorem checksumOp_ok (h : plen s ≤ 253) :
    checksumOp s = .next { s with txCsum := checksum s.txCmd s.txCtrl (txParams s), txStatus := .ok } := by
  unfold checksumOp; rw [if_neg (by simp [Config.maxParams, h])]

/-- CHECKSUM with P > 253 (41_checksum.md R76). -/
theorem checksumOp_tooLong (h : 253 < plen s) :
    checksumOp s = .next { s with txStatus := .paramsTooLong } := by
  unfold checksumOp; rw [if_pos (by simpa [Config.maxParams] using h)]; rfl

/-- DECODE of a legal RX_NBYTES (40_frame_codec.md R71). -/
theorem decodeOp_ok (h : s.rxNbytes.toNat ≤ 259) :
    decodeOp s = .next (publish (decodeFrame (rxBuffer s s.rxNbytes.toNat)) s) := by
  unfold decodeOp; rw [if_neg (by simp [Config.maxFrame, h])]

theorem decodeOp_next (h : decodeOp s = .next t) :
    s.rxNbytes.toNat ≤ 259 ∧ t = publish (decodeFrame (rxBuffer s s.rxNbytes.toNat)) s := by
  unfold decodeOp at h
  split at h
  · cases h
  · next hn => exact ⟨by simpa [Config.maxFrame] using hn, (Host.Outcome.next.inj h).symm⟩

/-! ### The engines -/

/-- What a transmit step can do (42_transport_framing.md R78). -/
theorem txStep_cases (h : txStep s = .next t) :
    ((s.phaseTx ≠ .send ∨ s.txAnswers = []) ∧ t = s) ∨
    (∃ r as, s.phaseTx = .send ∧ s.txAnswers = r :: as ∧ s.txSent.toNat ≤ 258 ∧
      ((r = .accept ∧ t = txAccepted (txf s s.txSent.toNat) { s with txAnswers := as }) ∨
        (r = .error ∧ t = txErrored { s with txAnswers := as }))) := by
  unfold txStep at h
  split at h
  · next r as hp ha =>
    right
    unfold txTake at h
    split at h
    · cases h
    · next hn =>
      refine ⟨r, as, hp, ha, by simp [Config.maxFrame] at hn; omega, ?_⟩
      split at h
      · exact .inl ⟨rfl, (Host.Outcome.next.inj h).symm⟩
      · exact .inr ⟨rfl, (Host.Outcome.next.inj h).symm⟩
  · next ha => exact .inl ⟨.inr ha, (Host.Outcome.next.inj h).symm⟩
  · next hp => exact .inl ⟨.inl (by simp [hp]), (Host.Outcome.next.inj h).symm⟩
  · next hp => exact .inl ⟨.inl (by simp [hp]), (Host.Outcome.next.inj h).symm⟩

theorem rxTakeByte_next {b : Byte} (h : rxTakeByte b s = .next t) :
    s.rxCount.toNat ≤ 258 ∧ t = rxFinish (rxStored b s) := by
  unfold rxTakeByte at h
  split at h
  · cases h
  · next hn => exact ⟨by simp [Config.maxFrame] at hn; omega, (Host.Outcome.next.inj h).symm⟩

/-- The bytes counted so far, one more (10_state.md R35: no wrap while RX_FRAME has room). -/
theorem count_succ {c : Count} (h : c.toNat ≤ 258) : (c + 1#9).toNat = c.toNat + 1 := by
  rw [BitVec.toNat_add]; show (c.toNat + 1) % 512 = c.toNat + 1; omega

/-- `rx_need` changes only at the third byte (42_transport_framing.md R81). -/
theorem needAfter_cases {c : Count} (h : c.toNat ≤ 258) (b : Byte) (need : Count) :
    (c.toNat = 2 ∧ (needAfter b (c + 1#9) need).toNat = b.toNat + 4) ∨
      (c.toNat ≠ 2 ∧ needAfter b (c + 1#9) need = need) := by
  by_cases e : c.toNat = 2
  · left
    have e' : c + 1#9 = 3#9 := BitVec.eq_of_toNat_eq (by rw [count_succ h, e]; rfl)
    refine ⟨e, ?_⟩
    rw [needAfter, if_pos e']
    simp; omega
  · right
    refine ⟨e, if_neg fun e' => e ?_⟩
    have := congrArg BitVec.toNat e'
    rw [count_succ h] at this
    simpa using this

/-- A received byte completes the frame or does not (42_transport_framing.md R81). -/
theorem rxFinish_cases (s : State) :
    (s.rxCount ≠ s.rxNeed ∧ rxFinish s = s) ∨
    (s.rxCount = s.rxNeed ∧ rxFinish s =
      publish (decodeFrame (rxBuffer s s.rxCount.toNat)) { s with rxNbytes := s.rxCount, phaseRx := .idle }) := by
  by_cases h : s.rxCount = s.rxNeed
  · exact .inr ⟨h, if_pos h⟩
  · exact .inl ⟨h, if_neg h⟩

/-- An accepted byte was the last of the image or was not (42_transport_framing.md R78). -/
theorem txAccepted_cases (b : Byte) (s : State) :
    (s.txSent + 1#9 ≠ s.txFlen ∧ txAccepted b s = { s with out := s.out ++ [b], txSent := s.txSent + 1#9 }) ∨
    (s.txSent + 1#9 = s.txFlen ∧ txAccepted b s =
      { s with out := s.out ++ [b], txSent := s.txSent + 1#9, phaseTx := .idle, txStatus := .ok }) := by
  by_cases h : s.txSent + 1#9 = s.txFlen
  · exact .inr ⟨h, if_pos h⟩
  · exact .inl ⟨h, if_neg h⟩

/-- What a receive step can do (42_transport_framing.md R81, R82). -/
theorem rxStep_cases (h : rxStep s = .next t) :
    ((s.phaseRx ≠ .recv ∨ s.rxInEnded = true ∨ s.rxIn = []) ∧ t = s) ∨
    (∃ b es, s.phaseRx = .recv ∧ s.rxInEnded = false ∧ s.rxIn = .byte b :: es ∧ s.rxCount.toNat ≤ 258 ∧
      t = rxFinish (rxStored b { s with rxIn := es })) ∨
    (∃ e es, s.phaseRx = .recv ∧ s.rxInEnded = false ∧ s.rxIn = e :: es ∧ e.ending = true ∧
      t = { s with rxIn := [], rxInEnded := true, rxNbytes := s.rxCount, phaseRx := .failed,
                   rxStatus := .transportFailure }) := by
  unfold rxStep at h
  split at h
  · next e es hp hi hx =>
    right
    cases e with
    | byte b =>
      left
      exact ⟨b, es, hp, hi, hx, rxTakeByte_next h⟩
    | closed => right; exact ⟨_, es, hp, hi, hx, rfl, by cases h; rfl⟩
    | error => right; exact ⟨_, es, hp, hi, hx, rfl, by cases h; rfl⟩
  · next hx => exact .inl ⟨.inr (.inr hx), (Host.Outcome.next.inj h).symm⟩
  · next hi => exact .inl ⟨.inr (.inl hi), (Host.Outcome.next.inj h).symm⟩
  · next hp => exact .inl ⟨.inl (by simp [hp]), (Host.Outcome.next.inj h).symm⟩
  · next hp => exact .inl ⟨.inl (by simp [hp]), (Host.Outcome.next.inj h).symm⟩

/-! ### The bus -/

/-- What a host write elsewhere than to OP can do (43_control.md R86). -/
theorem memWrite_cases {a : Addr} {v : Word} (ha : a ≠ 0x000#12) (h : memWrite a v s = .next t) :
    t = s ∨
    (a = 0x004#12 ∧ t = { s with txCmd := lowByte v }) ∨
    (a = 0x005#12 ∧ t = { s with txCtrl := lowByte v }) ∨
    (a = 0x006#12 ∧ t = { s with txPlen := lowByte v }) ∨
    (a = 0x00A#12 ∧ s.phaseRx = .idle ∧ t = { s with rxNbytes := clampCount v }) ∨
    (∃ i, a.toNat = 0x100 + i ∧ i < 253 ∧ t = s.storeByte a.toNat (lowByte v)) ∨
    (∃ i, a.toNat = 0x400 + i ∧ i < 259 ∧ s.phaseRx = .idle ∧ t = s.storeByte a.toNat (lowByte v)) := by
  unfold memWrite at h
  rcases locate_cases a with ⟨r, e, hr, -⟩ | ⟨i, e, hi, hlt⟩ | ⟨i, e, hi, hlt⟩ | ⟨i, e, hi, hlt⟩ | ⟨e, -⟩ <;>
    rw [e] at h <;> simp only at h
  · subst hr
    cases r <;> simp only [writeReg] at h
    case op => exact absurd rfl ha
    case txCmd => exact .inr (.inl ⟨rfl, (Host.Outcome.next.inj h).symm⟩)
    case txCtrl => exact .inr (.inr (.inl ⟨rfl, (Host.Outcome.next.inj h).symm⟩))
    case txPlen => exact .inr (.inr (.inr (.inl ⟨rfl, (Host.Outcome.next.inj h).symm⟩)))
    case rxNbytes =>
      split at h
      · next hp => exact .inr (.inr (.inr (.inr (.inl ⟨rfl, hp, (Host.Outcome.next.inj h).symm⟩))))
      · exact .inl (Host.Outcome.next.inj h).symm
    all_goals exact .inl (Host.Outcome.next.inj h).symm
  · have e' : Config.txParamBase + i = a.toNat := hi.symm
    rw [e'] at h
    exact .inr (.inr (.inr (.inr (.inr (.inl ⟨i, hi, hlt, (Host.Outcome.next.inj h).symm⟩)))))
  · exact .inl (Host.Outcome.next.inj h).symm
  · split at h
    · next hp =>
      have e' : Config.rxFrameBase + i = a.toNat := hi.symm
      rw [e'] at h
      exact .inr (.inr (.inr (.inr (.inr (.inr ⟨i, hi, hlt, hp, (Host.Outcome.next.inj h).symm⟩)))))
    · exact .inl (Host.Outcome.next.inj h).symm
  · exact .inl (Host.Outcome.next.inj h).symm

/-- A host write elsewhere than to OP always completes. -/
theorem memWrite_next {a : Addr} (v : Word) (ha : a ≠ 0x000#12) (s : State) : ∃ t, memWrite a v s = .next t := by
  unfold memWrite
  rcases locate_cases a with ⟨r, e, hr, -⟩ | ⟨i, e, -⟩ | ⟨i, e, -⟩ | ⟨i, e, -⟩ | ⟨e, -⟩ <;> rw [e] <;> simp only
  · subst hr
    cases r <;> simp only [writeReg]
    case op => exact absurd rfl ha
    case rxNbytes => split <;> exact ⟨_, rfl⟩
    all_goals exact ⟨_, rfl⟩
  · exact ⟨_, rfl⟩
  · exact ⟨_, rfl⟩
  · split <;> exact ⟨_, rfl⟩
  · exact ⟨_, rfl⟩

theorem memWrite_op (v : Word) (s : State) : memWrite 0x000#12 v s = dispatchWord v s := rfl

/-- What a write to OP can do (43_control.md R87). -/
theorem dispatchWord_cases {v : Word} (h : dispatchWord v s = .next t) :
    t = s.setOpErr .illegalOp ∨ ∃ i, decode v = .ok i ∧ exec i s = .next t := by
  unfold dispatchWord at h
  split at h
  · next i e => exact .inr ⟨i, e, h⟩
  · exact .inl (Host.Outcome.next.inj h).symm

/-- What a step can do: the agenda is empty and nothing happens, or the agent named first acts. -/
theorem step_cases (h : step s = .next t) :
    (s.agenda = [] ∧ t = s) ∨ ∃ x rest, s.agenda = x :: rest ∧ perform x { s with agenda := rest } = .next t := by
  unfold step at h
  split at h
  · next e => exact .inl ⟨e, (Host.Outcome.next.inj h).symm⟩
  · next x rest e => exact .inr ⟨x, rest, e, h⟩

/-- What an offered event does to the channel (20_memory.md R47; log 6). -/
theorem offerEvent_cases (e : RxEvent) (s : State) :
    offerEvent e s = s ∨
      (s.rxInEnded = false ∧ s.rxIn.any RxEvent.ending = false ∧ offerEvent e s = { s with rxIn := s.rxIn ++ [e] }) := by
  unfold offerEvent
  split
  · exact .inl rfl
  · next h =>
    simp only [Bool.or_eq_true, not_or, Bool.not_eq_true] at h
    exact .inr ⟨h.1, h.2, rfl⟩

end Sys2Proof.Machine
end

