-- ==== Sys2Proof/Laws/PerInstr.lean ====
section
/-! SUPPORT. What holds of every operation as syntax, one lemma per constructor (LAWS.json). -/

namespace Sys2Proof.Laws.EncodedWord

/-- The word of a well-formed operation is legal, its MBZ field is 0 and its OPCODE field is the operation's code
(30_encoding.md R61 to R63). -/
def Statement (i : Instr) : Prop :=
  i.wellFormed = true → wellFormedWord (encode i) = true ∧ mbzField (encode i) = 0#12 ∧
    opcodeField (encode i) = opcodeOf i

theorem nop : Statement .nop := fun _ => by decide

theorem encode : Statement .encode := fun _ => by decide

theorem transmit : Statement .transmit := fun _ => by decide

theorem checksum : Statement .checksum := fun _ => by decide

theorem receive : Statement .receive := fun _ => by decide

theorem decode : Statement .decode := fun _ => by decide

theorem reset : Statement .reset := fun _ => by decide

end Sys2Proof.Laws.EncodedWord
end

