-- ==== Sys2Proof/Machine/Program.lean ====
section
/-! DEFINITION. The host-program notation of 30_encoding.md R64: each line and the steps it stands for. -/

namespace Sys2Proof.Machine

/-- A line of a host program (30_encoding.md R64). -/
inductive Line where
  /-- `wr A, V`. -/
  | wr (a : Addr) (v : Word)
  /-- `rd A -> V`: a read that returns V. -/
  | rd (a : Addr) (v : Word)
  /-- `op NAME`. -/
  | op (i : Instr)
  /-- `wrp i: b0 b1 ..`. -/
  | wrp (i : Nat) (bs : List Byte)
  /-- `wrr i: b0 b1 ..`. -/
  | wrr (i : Nat) (bs : List Byte)
  /-- `env rx b0 b1 ..`. -/
  | envRx (bs : List Byte)
  /-- `env rx close`. -/
  | envRxClose
  /-- `env rx error`. -/
  | envRxError
  /-- `env tx accept n`. -/
  | envTxAccept (n : Nat)
  /-- `env tx error`. -/
  | envTxError
  /-- `run tx`. -/
  | runTx
  /-- `run rx`. -/
  | runRx
  deriving DecidableEq, Repr

/-- Host writes of bytes to consecutive locations from `base` up, one per byte. -/
def byteWrites (base : Nat) (bs : List Byte) : List Action :=
  bs.zipIdx.map fun (b, i) => .hostWrite (BitVec.ofNat 12 (base + i)) (b.zeroExtend 16)

/-- The steps a line stands for (30_encoding.md R64). A `run` is as many engine steps as the longest frame has bytes:
each takes one byte, and those after the engine has stopped hold (log 4, log 16). -/
def Line.actions : Line → List Action
  | .wr a v => [.hostWrite a v]
  | .rd a _ => [.hostRead a]
  | .op i => [.hostWrite Reg.op.addr (encode i)]
  | .wrp i bs => byteWrites (Config.txParamBase + i) bs
  | .wrr i bs => byteWrites (Config.rxFrameBase + i) bs
  | .envRx bs => bs.map fun b => .offer (.byte b)
  | .envRxClose => [.offer .closed]
  | .envRxError => [.offer .error]
  | .envTxAccept n => List.replicate n (.answer .accept)
  | .envTxError => [.answer .error]
  | .runTx => List.replicate Config.maxFrame .txStep
  | .runRx => List.replicate Config.maxFrame .rxStep

/-- The steps of a program. -/
def programActions (p : List Line) : List Action := p.flatMap Line.actions

/-- The values a program's `rd` lines say its reads return, in order. -/
def programReads (p : List Line) : List Word :=
  p.filterMap fun l => match l with
    | .rd _ v => some v
    | _ => none

end Sys2Proof.Machine
end

