-- ==== Sys2Proof/Tests/Slice0.lean ====
section
/-! SUPPORT. The model's own tests: well-formedness, the decoding of each operation word, one or two steps per
operation with results taken from spec/95_test_vectors.md, and a witness for the hypotheses of each statement. -/

namespace Sys2Proof.Machine.Tests

open Sys2Proof Sys2Proof.Machine

/-- The result is a next state of which `f` holds. -/
def nextIs (r : Result) (f : State → Bool) : Bool :=
  match r with
  | .next t => f t
  | .fault _ => false
  | .refused _ => false

/-- The memory with the bytes `bs` at `base` and up. -/
def memOf (base : Nat) (bs : List Byte) : Memory := Memory.writeBytes [] base bs

/-- The get-pose frame of 95_test_vectors.md 1.1. -/
def frame6 : List Byte := [0xAA#8, 0xAA#8, 0x02#8, 0x0A#8, 0x00#8, 0xF6#8]

/-- The operands of the get-pose query: TX_CMD = 0x0A, TX_CTRL = 0, TX_PLEN = 0. -/
def queryState : State := { State.reset with txCmd := 0x0A#8 }

/-- The end-effector operands of 95_test_vectors.md 2.2. -/
def gripState : State :=
  { State.reset with txCmd := 0x3E#8, txCtrl := 0x01#8, txPlen := 2#8, mem := memOf 0x100 [0x01#8, 0x01#8] }

/-- TX_FRAME holds the get-pose frame. -/
def encodedState : State := { queryState with mem := memOf 0x200 frame6, txFlen := 6#9, txCsum := 0xF6#8, txStatus := .ok }

/-- The get-pose frame is being sent, five bytes gone. -/
def sendingState : State :=
  { encodedState with
    phaseTx := .send, txSent := 5#9, txStatus := .inProgress, out := frame6.take 5, txAnswers := [.accept]
    agenda := [.txStep] }

/-- Five bytes of the get-pose frame have been received, the last waits. -/
def receivingState : State :=
  { State.reset with
    mem := memOf 0x400 (frame6.take 5), phaseRx := .recv, rxStatus := .inProgress, rxCount := 5#9, rxNeed := 6#9
    rxIn := [.byte 0xF6#8, .byte 0xAA#8], agenda := [.rxStep] }

/-- The output channel has failed after three bytes. -/
def txFailedState : State :=
  { encodedState with phaseTx := .failed, txSent := 3#9, txStatus := .transportFailure, out := frame6.take 3 }

/-- The input channel has closed after three bytes (95_test_vectors.md P5). -/
def rxFailedState : State :=
  { State.reset with
    mem := memOf 0x400 [0xAA#8, 0xAA#8, 0x04#8], phaseRx := .failed, rxStatus := .transportFailure, rxCount := 3#9
    rxNbytes := 3#9, rxNeed := 8#9, rxInEnded := true }

/-- RX_FRAME and RX_NBYTES hold the buffer `bs`. -/
def decodable (bs : List Byte) : State :=
  { State.reset with mem := memOf 0x400 bs, rxNbytes := BitVec.ofNat 9 bs.length }

/-! ### Well-formedness: an ill-formed word for each check -/

theorem test_mbz_check_refuses : mbzClear 0x0010#16 = false ∧ wellFormedWord 0x0010#16 = false := by decide

theorem test_opcode_check_refuses_low : opcodeAssigned 0x0006#16 = false ∧ wellFormedWord 0x0006#16 = false := by decide

theorem test_opcode_check_refuses_high : opcodeAssigned 0x000E#16 = false ∧ wellFormedWord 0x000E#16 = false := by decide

/-! ### Decoding: each operation's word, bit by bit from 30_encoding.md R61 and R62 -/

theorem test_decode_nop : decode 0b0000000000000000#16 = .ok .nop := by decide

theorem test_decode_encode : decode 0b0000000000000001#16 = .ok .encode := by decide

theorem test_decode_transmit : decode 0b0000000000000010#16 = .ok .transmit := by decide

theorem test_decode_checksum : decode 0b0000000000000011#16 = .ok .checksum := by decide

theorem test_decode_receive : decode 0b0000000000000100#16 = .ok .receive := by decide

theorem test_decode_decode : decode 0b0000000000000101#16 = .ok .decode := by decide

theorem test_decode_reset : decode 0b0000000000001111#16 = .ok .reset := by decide

theorem test_decode_refuses_opcode : decode 0x0006#16 = .error (.opcodeUnassigned 6#4) := by decide

theorem test_decode_refuses_mbz : decode 0xFFFF#16 = .error (.reservedBitsSet 0xFFF#12) := by decide

theorem test_decodeTableWord : decodeTableWord 16 0x0004 = some .receive ∧ decodeTableWord 16 0x0010 = none := by decide

theorem test_withFetchWord_runs :
    nextIs (step (State.reset.withFetchWord 16 0x0004)) (fun t => gstatus t == 0x0002#16) = true := by decide

/-! ### The functions (95_test_vectors.md 2.1, 2.3) -/

theorem test_checksum_reference : checksum 10#8 0x00#8 [] = 246#8 := by decide

theorem test_checksum_wraps : checksum 0x12#8 0x34#8 [0x56#8, 0x78#8, 0x9A#8] = 0x52#8 := by decide

theorem test_encodeFrame_grip :
    frameBytes 0x3E#8 0x01#8 [0x01#8, 0x01#8] = [0xAA#8, 0xAA#8, 0x04#8, 0x3E#8, 0x01#8, 0x01#8, 0x01#8, 0xBF#8] := by
  decide

theorem test_decodeFrame_length_zero : decodeFrame [0xAA#8, 0xAA#8, 0#8, 0x0A#8, 0#8, 0xF6#8] = .error .badLength := by
  decide

theorem test_decodeFrame_size_before_header : decodeFrame [0#8, 0#8, 2#8] = .error .truncated := by decide

theorem test_decodeFrame_header_before_length :
    decodeFrame [0x55#8, 0xAA#8, 0#8, 0#8, 0#8, 0#8] = .error .badHeader := by decide

/-! ### The operations, one step each -/

/-- 43_control.md R88, its example. -/
theorem test_nop_clears_operr :
    nextIs (exec .nop { State.reset with opErr := .illegalOp }) (fun t => t == State.reset) = true := by decide

/-- 95_test_vectors.md 2.2, second row. -/
theorem test_encode_grip :
    nextIs (exec .encode gripState) (fun t =>
      txImage t == [0xAA#8, 0xAA#8, 0x04#8, 0x3E#8, 0x01#8, 0x01#8, 0x01#8, 0xBF#8] && t.txCsum == 0xBF#8) = true := by
  decide

/-- 95_test_vectors.md 2.2, P = 254. -/
theorem test_encode_too_long :
    nextIs (exec .encode { encodedState with txPlen := 254#8 }) (fun t =>
      t.txStatus == .paramsTooLong && t.txFlen == 0#9 && t.txCsum == 0xF6#8) = true := by decide

/-- 41_checksum.md R76, its example. -/
theorem test_checksum_query : nextIs (exec .checksum queryState) (fun t => t.txCsum == 0xF6#8) = true := by decide

theorem test_checksum_too_long :
    nextIs (exec .checksum { encodedState with txPlen := 255#8 }) (fun t =>
      t.txStatus == .paramsTooLong && t.txFlen == 6#9) = true := by decide

/-- 42_transport_framing.md R77, its example. -/
theorem test_transmit_starts :
    nextIs (exec .transmit encodedState) (fun t =>
      t.phaseTx == .send && memRead 0x002#12 t == 0x000E#16 && t.txSent == 0#9) = true := by decide

/-- 95_test_vectors.md 2.5, last row. -/
theorem test_transmit_without_frame :
    nextIs (exec .transmit State.reset) (fun t => t.phaseTx == .idle && t.txStatus == .ok) = true := by decide

/-- 42_transport_framing.md R80, its example. -/
theorem test_receive_starts :
    nextIs (exec .receive State.reset) (fun t => gstatus t == 0x0002#16 && t.rxStatus.code == 0xE#4) = true := by decide

/-- 95_test_vectors.md 2.6, RX RECV. -/
theorem test_receive_busy : nextIs (exec .receive receivingState) (fun t => gstatus t == 0x0022#16) = true := by decide

/-- 95_test_vectors.md 2.3, row "good". -/
theorem test_decode_good :
    nextIs (exec .decode (decodable frame6)) (fun t =>
      t.rxStatus == .ok && t.rxValid && t.rxLen == 2#8 && t.rxCmd == 0x0A#8 && t.rxCsumRcv == 0xF6#8) = true := by decide

/-- 95_test_vectors.md 2.3, row "ctrl changed". -/
theorem test_decode_mismatch :
    nextIs (exec .decode (decodable [0xAA#8, 0xAA#8, 2#8, 0x0A#8, 1#8, 0xF6#8])) (fun t =>
      t.rxStatus == .integrityMismatch && t.rxCmd == 0#8 && t.rxCsumExp == 0xF5#8 && t.rxCsumRcv == 0xF6#8) = true := by
  decide

/-- 43_control.md R89, its example; the buffers are kept. -/
theorem test_reset_from_failed :
    nextIs (exec .reset rxFailedState) (fun t =>
      gstatus t == 0x0000#16 && t.rxStatus == .none && rxBuffer t 3 == [0xAA#8, 0xAA#8, 0x04#8]) = true := by decide

/-! ### The engines and the bus -/

/-- 42_transport_framing.md R78, the sixth Accept. -/
theorem test_tx_last_byte :
    nextIs (step sendingState) (fun t => t.out == frame6 && t.phaseTx == .idle && t.txStatus == .ok) = true := by decide

/-- 42_transport_framing.md R81, the sixth byte; the next event stays. -/
theorem test_rx_last_byte :
    nextIs (step receivingState) (fun t =>
      t.rxNbytes == 6#9 && t.rxValid && t.rxCmd == 0x0A#8 && t.rxIn == [.byte 0xAA#8]) = true := by decide

/-- 95_test_vectors.md 2.4: after the third byte L, `rx_need = L + 4`. -/
theorem test_rx_length_byte :
    nextIs (rxStep { receivingState with rxCount := 2#9, rxNeed := 3#9, rxIn := [.byte 0xFF#8] }) (fun t =>
      t.rxNeed == 259#9 && t.phaseRx == .recv) = true := by decide

/-- 95_test_vectors.md 2.7: RX_NBYTES is clamped to 259. -/
theorem test_nbytes_clamped :
    nextIs (memWrite 0x00A#12 0x0105#16 State.reset) (fun t => memRead 0x00A#12 t == 0x0103#16) = true := by decide

/-- 95_test_vectors.md 2.7: TXP[252]. -/
theorem test_last_param :
    nextIs (memWrite 0x1FC#12 0x1234#16 State.reset) (fun t => memRead 0x1FC#12 t == 0x0034#16) = true := by decide

/-- 95_test_vectors.md 2.7: reserved locations read 0. -/
theorem test_reserved_read_zero :
    (memRead 0x013#12 gripState, memRead 0x1FD#12 gripState, memRead 0x303#12 gripState, memRead 0xFFF#12 gripState) =
      (0#16, 0#16, 0#16, 0#16) := by decide

/-- 30_encoding.md R64: `op ENCODE` is `wr 000, 0001`; `wrr` writes one location per byte. -/
theorem test_notation :
    programActions [.op .encode, .wrr 1 [0xAA#8, 0x02#8]] =
      [.hostWrite 0x000#12 0x0001#16, .hostWrite 0x401#12 0x00AA#16, .hostWrite 0x402#12 0x0002#16] := by decide

/-! ### Witnesses: a concrete state and operands that meet the hypotheses of each statement -/

theorem witness_sending_legal : sendingState.Legal :=
  ⟨by decide, by decide, ⟨by decide, by decide, by decide, by decide, by decide, by decide⟩,
    ⟨by decide, by decide, by decide, by decide, by decide, by decide, by decide, by decide, by decide, by decide,
      by decide, by decide, by decide⟩, by decide⟩

theorem witness_receiving_legal : receivingState.Legal :=
  ⟨by decide, by decide, ⟨by decide, by decide, by decide, by decide, by decide, by decide⟩,
    ⟨by decide, by decide, by decide, by decide, by decide, by decide, by decide, by decide, by decide, by decide,
      by decide, by decide, by decide⟩, by decide⟩

theorem witness_rxFailed_legal : rxFailedState.Legal :=
  ⟨by decide, by decide, ⟨by decide, by decide, by decide, by decide, by decide, by decide⟩,
    ⟨by decide, by decide, by decide, by decide, by decide, by decide, by decide, by decide, by decide, by decide,
      by decide, by decide, by decide⟩, by decide⟩

theorem witness_txFailed_legal : txFailedState.Legal :=
  ⟨by decide, by decide, ⟨by decide, by decide, by decide, by decide, by decide, by decide⟩,
    ⟨by decide, by decide, by decide, by decide, by decide, by decide, by decide, by decide, by decide, by decide,
      by decide, by decide, by decide⟩, by decide⟩

theorem witness_EveryStepKeepsTheStateLegal : sendingState.Legal ∧ ∃ t, step sendingState = .next t :=
  ⟨witness_sending_legal, _, rfl⟩

theorem witness_EveryStepKeepsTheImageAFrame :
    TxImageIsFrame sendingState ∧ sendingState.txFlen ≠ 0#9 ∧ ∃ t, step sendingState = .next t :=
  ⟨fun _ => ⟨_, rfl⟩, by decide, _, rfl⟩

theorem witness_LegalStepsContinue : receivingState.Legal := witness_receiving_legal

theorem witness_StepRunsTheDecodedOperation :
    (State.reset.withFetchWord 16 1).agenda = .hostWrite 0x000#12 0x0001#16 :: [] ∧ decode 0x0001#16 = .ok .encode ∧
      Instr.wellFormed .encode = true := by decide

theorem witness_OperationWordsAreUnambiguous : decode 0x000F#16 = .ok .reset ∧ wellFormedWord 0x0000#16 = true := by decide

theorem witness_IllegalWordSetsOnlyOperr :
    (State.reset.scheduled [.hostWrite 0x000#12 0x0006#16]).agenda = .hostWrite 0x000#12 0x0006#16 :: [] ∧
      (0x0006#16).toNat / 16 = 0 ∧ (0x0006#16).toNat % 16 = 6 ∧ (0x000E#16).toNat % 16 = 14 ∧ (0x0010#16).toNat / 16 ≠ 0 := by
  decide

theorem witness_DispatchDecidesInOrder :
    (0x0010#16).toNat / 16 ≠ 0 ∧ encode .encode = 0x0001#16 ∧ encode .decode = 0x0005#16 ∧ .encode ∈ txOperations ∧
      .decode ∈ rxOperations ∧ sendingState.phaseTx = .send ∧ txFailedState.phaseTx = .failed ∧
      receivingState.phaseRx = .recv ∧ rxFailedState.phaseRx = .failed ∧ State.reset.phaseTx = .idle ∧
      State.reset.phaseRx = .idle ∧ State.reset.rxNbytes.toNat ≤ 259 := by decide

theorem witness_ChecksumLaws :
    ([1#8, 2#8, 3#8].Perm [3#8, 1#8, 2#8]) ∧ 0 < [3#8].length ∧ (1#8 : Byte) ≠ 0#8 := by decide

theorem witness_EncodedFrameLayout (b : Byte) :
    253 < (List.replicate 254 b).length ∧ (List.replicate 253 b).length ≤ 253 ∧ 252 < (List.replicate 253 b).length := by
  rw [List.length_replicate, List.length_replicate]; omega

theorem witness_DecoderAcceptsExactlyEncoderOutput :
    decodeFrame frame6 =
      .ok { length := 2#8, commandId := 0x0A#8, control := 0#8, params := [], checksum := 0xF6#8 } := by decide

theorem witness_DecodeErrorCauses :
    decodeFrame (frame6.take 5) = .error .truncated ∧
      decodeFrame [0xAA#8, 0xAA#8, 3#8, 0x0A#8, 0#8, 0xF6#8] = .error .truncated ∧
      decodeFrame (frame6.set 0 0xAB#8) = .error .badHeader ∧
      decodeFrame (frame6.set 2 1#8) = .error .badLength ∧
      decodeFrame (frame6 ++ [0#8]) = .error .badLength ∧
      decodeFrame (frame6.set 5 0xF5#8) = .error (.integrityMismatch 0xF6#8 0xF5#8) := by decide

theorem witness_SingleByteChangeIsCaught :
    let f := frameBytes 0x54#8 3#8 [5#8, 0#8, 0#8, 0#8]
    f.length = 10 ∧ 0xAB#8 ≠ byteAt f 1 ∧ 5#8 ≠ byteAt f 2 ∧ 1#8 ≠ byteAt f 2 ∧ 7#8 ≠ byteAt f 2 ∧ 0x55#8 ≠ byteAt f 3 ∧
      1#8 ≠ byteAt f 8 ∧ 0#8 ≠ byteAt f 9 := by decide

theorem witness_EncodeCopyDecodeRoundTrip :
    let u := decodable [0xAA#8, 0xAA#8, 0x04#8, 0x3E#8, 0x01#8, 0x01#8, 0x01#8, 0xBF#8]
    gripState.phaseTx = .idle ∧ gripState.txPlen.toNat ≤ 253 ∧ u.phaseRx = .idle ∧
      nextIs (exec .encode gripState) (fun t =>
        u.rxNbytes == t.txFlen && (List.range t.txFlen.toNat).all fun i => rxf u i == txf t i) = true := by decide

theorem witness_EncodeBuildsTheFrame :
    let longest : State := { queryState with txPlen := 253#8 }
    let tooLong : State := { queryState with txPlen := 254#8 }
    (longest.phaseTx = .idle ∧ longest.txPlen.toNat = 253) ∧ (tooLong.phaseTx = .idle ∧ tooLong.txPlen.toNat = 254) ∧
      txFailedState.phaseTx ≠ .idle ∧ (0x100#12 : Addr) ≠ 0x000#12 ∧
      nextIs (exec .encode queryState) (fun t => nextIs (memWrite 0x100#12 1#16 t) fun _ => true) = true := by decide

theorem witness_ChecksumOperationWritesTxCsum :
    let longest : State := { queryState with txPlen := 253#8 }
    let tooLong : State := { queryState with txPlen := 254#8 }
    (longest.phaseTx = .idle ∧ longest.txPlen.toNat = 253) ∧ (tooLong.phaseTx = .idle ∧ tooLong.txPlen.toNat = 254) ∧
      sendingState.phaseTx ≠ .idle ∧ nextIs (exec .encode queryState) (fun _ => true) = true := by decide

theorem witness_DecodePublishesTheResult :
    let fullest : State := { State.reset with rxNbytes := 259#9 }
    (fullest.phaseRx = .idle ∧ fullest.rxNbytes.toNat = 259) ∧ (decodable frame6).rxNbytes.toNat = 6 ∧
      rxFailedState.phaseRx ≠ .idle := by decide

theorem witness_TransmitStartsTheEngine :
    (txFailedState.phaseTx ≠ .idle ∧ State.reset.txFlen = 0#9 ∧ encodedState.phaseTx = .idle ∧
      encodedState.txFlen ≠ 0#9 ∧ sendingState.phaseTx = .send ∧
      nextIs (memWrite 0x004#12 0xFF#16 sendingState) (fun _ => true) = true) ∧ sendingState.Legal :=
  ⟨by decide, witness_sending_legal⟩

theorem witness_ReceiveStartsTheEngine : receivingState.phaseRx ≠ .idle ∧ State.reset.phaseRx = .idle := by decide

theorem witness_OperationsLeaveTheChannelsAlone : ∃ t, exec .transmit encodedState = .next t := ⟨_, rfl⟩

theorem witness_TransmitEngineStep :
    let more : State := { sendingState with txSent := 3#9 }
    let failing : State := { sendingState with txAnswers := [.error], txSent := 0#9 }
    (sendingState.agenda = .txStep :: [] ∧ sendingState.phaseTx = .send ∧ sendingState.txAnswers = .accept :: [] ∧
      sendingState.txSent.toNat ≤ 258 ∧ sendingState.txSent + 1#9 = sendingState.txFlen) ∧
      (more.agenda = .txStep :: [] ∧ more.txAnswers = .accept :: [] ∧ more.txSent + 1#9 ≠ more.txFlen) ∧
      (failing.agenda = .txStep :: [] ∧ failing.phaseTx = .send ∧ failing.txAnswers = .error :: []) ∧
      ((txFailedState.scheduled [.txStep]).agenda = .txStep :: [] ∧ txFailedState.phaseTx ≠ .send) := by decide

theorem witness_ReceiveEngineByteStep :
    let third : State := { receivingState with rxCount := 2#9, rxNeed := 3#9 }
    (receivingState.agenda = .rxStep :: [] ∧ receivingState.phaseRx = .recv ∧ receivingState.rxInEnded = false ∧
      receivingState.rxIn = .byte 0xF6#8 :: [.byte 0xAA#8] ∧ receivingState.rxCount.toNat ≤ 258 ∧
      receivingState.rxCount + 1#9 = receivingState.rxNeed) ∧
      (third.phaseRx = .recv ∧ third.rxIn = .byte 0xF6#8 :: [.byte 0xAA#8] ∧ third.rxCount + 1#9 = 3#9) := by decide

theorem witness_ReceiveEngineFailureStep :
    let s : State := { receivingState with rxIn := [.closed] }
    s.agenda = .rxStep :: [] ∧ s.phaseRx = .recv ∧ s.rxInEnded = false ∧ s.rxIn = .closed :: [] := by decide

theorem witness_EnginesHoldWhenNotEnabled :
    let quiet : State := { receivingState with rxIn := [] }
    let unanswered : State := { sendingState with txAnswers := [] }
    (quiet.agenda = .rxStep :: [] ∧ quiet.phaseRx = .recv ∧ quiet.rxIn = []) ∧
      (unanswered.agenda = .txStep :: [] ∧ unanswered.phaseTx = .send ∧ unanswered.txAnswers = []) ∧
      ((rxFailedState.scheduled [.rxStep]).agenda = .rxStep :: [] ∧ rxFailedState.phaseRx ≠ .recv ∧
        rxFailedState.rxInEnded = true) ∧
      ((txFailedState.scheduled [.txStep]).agenda = .txStep :: [] ∧ txFailedState.phaseTx ≠ .send) := by decide

theorem witness_IndexOutsideAFrameBufferFaults :
    let d : State := { State.reset with rxNbytes := 260#9 }
    let u : State := { sendingState with txSent := 259#9 }
    let r : State := { receivingState with rxCount := 259#9 }
    (d.phaseRx = .idle ∧ d.rxNbytes.toNat = 260) ∧
      (u.phaseTx = .send ∧ u.txAnswers = .accept :: [] ∧ u.txSent.toNat = 259) ∧
      (r.phaseRx = .recv ∧ r.rxInEnded = false ∧ r.rxIn = .byte 0xF6#8 :: [.byte 0xAA#8] ∧ r.rxCount.toNat = 259) := by
  decide

theorem witness_EnvironmentStepsQueueInOrder :
    (State.reset.scheduled [.offer .closed]).agenda = .offer .closed :: [] ∧ State.reset.rxInEnded = false ∧
      State.reset.rxIn.any RxEvent.ending = false ∧ rxFailedState.rxInEnded = true ∧
      [RxEvent.error].any RxEvent.ending = true ∧
      (State.reset.scheduled [.answer .error]).agenda = .answer .error :: [] := by decide

theorem witness_TransmitEmitsTheImageInOrder :
    (sendingState.Legal ∧ Sending [] sendingState ∧ ∃ t, step sendingState = .next t) ∧
      (encodedState.phaseTx = .idle ∧ encodedState.txFlen ≠ 0#9 ∧ ∃ t, exec .transmit encodedState = .next t) ∧
      gripState.phaseTx = .idle ∧ gripState.txPlen.toNat ≤ 253 ∧ ∃ t, exec .encode gripState = .next t :=
  ⟨⟨witness_sending_legal, ⟨rfl, by decide⟩, _, rfl⟩, ⟨by decide, by decide, _, rfl⟩, by decide, by decide, _, rfl⟩

theorem witness_TransmitRunsToItsEnd :
    let s : State := { encodedState with txAnswers := List.replicate 6 .accept }
    s.phaseTx = .idle ∧ s.txFlen ≠ 0#9 ∧ s.txFlen.toNat ≤ 259 ∧
      s.txAnswers = List.replicate s.txFlen.toNat .accept ++ [] ∧ nextIs (exec .transmit s) (fun _ => true) = true := by
  decide

theorem witness_ReceiveTakesExactlyOneFrame :
    receivingState.Legal ∧ Receiving (frame6.take 5) receivingState ∧ ∃ t, step receivingState = .next t :=
  ⟨witness_receiving_legal, ⟨rfl, rfl, by decide⟩, _, rfl⟩

theorem witness_ReceiveRunsToItsEnd :
    let s : State := { State.reset with rxIn := asEvents frame6 ++ [.closed] }
    s.phaseRx = .idle ∧ s.rxInEnded = false ∧ frame6.length = (byteAt frame6 2).toNat + 4 ∧
      s.rxIn = asEvents frame6 ++ [.closed] ∧ nextIs (exec .receive s) (fun _ => true) = true := by decide

/-- The states after ENCODE and TRANSMIT of the get-pose query, all answers given, and after its six steps. -/
def sentState : State :=
  { encodedState with phaseTx := .idle, txSent := 6#9, out := frame6, opErr := .accepted }

theorem witness_SentFrameIsReceivedAsSent :
    let s : State := { queryState with txAnswers := List.replicate 6 .accept }
    ∃ s₁ s₂, exec .encode s = .next s₁ ∧ exec .transmit s₁ = .next s₂ ∧
      Host.Core.run core 6 (s₂.scheduled (List.replicate 6 .txStep)) = .next sentState ∧
      s.phaseTx = .idle ∧ s.txPlen.toNat ≤ 253 ∧
      asEvents (sentState.out.drop s.out.length) = asEvents frame6 ∧
      ∃ r₁, exec .receive { State.reset with rxIn := asEvents frame6 ++ [] } = .next r₁ :=
  ⟨_, _, rfl, rfl, rfl, rfl, by decide, rfl, _, rfl⟩

theorem witness_EnginesWaitOnlyForTheirChannel : sendingState.Legal ∧ receivingState.Legal :=
  ⟨witness_sending_legal, witness_receiving_legal⟩

theorem witness_HostReadValues :
    (0x1FC#12).toNat ≤ 0x1FC ∧ 0x200 ≤ (0x302#12).toNat ∧ (0x502#12).toNat ≤ 0x502 ∧ (0x013#12).toNat ≤ 0x0FF ∧
      0x1FD ≤ (0x1FF#12).toNat ∧ 0x303 ≤ (0x3FF#12).toNat ∧ 0x503 ≤ (0x503#12).toNat := by decide

theorem witness_HostWriteStores :
    (0x000#12).toNat = 0 ∧ (0x006#12).toNat = 6 ∧ (0x00A#12).toNat = 10 ∧ (0x502#12).toNat = 0x502 ∧
      State.reset.phaseRx = .idle ∧ rxFailedState.phaseRx ≠ .idle ∧ (0x007#12).toNat = 7 := by decide

theorem witness_HostAccessesStayLocal :
    (State.reset.scheduled [.hostRead 0x001#12]).agenda = .hostRead 0x001#12 :: [] ∧ (0x004#12 : Addr) ≠ 0x000#12 ∧
      nextIs (memWrite 0x004#12 0x0A#16 State.reset) (fun _ => true) = true := by decide

theorem witness_GstatusFields :
    nextIs (step (State.reset.withFetchWord 16 6)) (fun t => decide (t.opErr ≠ State.reset.opErr)) = true := by decide

theorem witness_EqualReadsMeanEqualMemories :
    Memory.wf [(0x100, 1#8), (0x502, 0#8)] ∧ Memory.wf (memOf 0x100 [1#8]) := by decide

theorem witness_OnlyResetLeavesFailed :
    nextIs (step (rxFailedState.withFetchWord 16 15)) (fun t =>
      decide (rxFailedState.phaseRx = .failed ∧ t.phaseRx ≠ .failed)) = true ∧
    nextIs (step (txFailedState.withFetchWord 16 15)) (fun t =>
      decide (txFailedState.phaseTx = .failed ∧ t.phaseTx ≠ .failed)) = true := by decide

theorem witness_ErrorStatusStays :
    let s := rxFailedState.withFetchWord 16 15
    let u := txFailedState.withFetchWord 16 15
    (s.Legal ∧ s.rxStatus = .transportFailure ∧ nextIs (step s) (fun t => decide (t.rxStatus ≠ s.rxStatus)) = true) ∧
      u.Legal ∧ u.txStatus = .transportFailure ∧ nextIs (step u) (fun t => decide (t.txStatus ≠ u.txStatus)) = true :=
  ⟨⟨⟨by decide, by decide, ⟨by decide, by decide, by decide, by decide, by decide, by decide⟩,
      ⟨by decide, by decide, by decide, by decide, by decide, by decide, by decide, by decide, by decide, by decide,
        by decide, by decide, by decide⟩, by decide⟩, by decide, by decide⟩,
    ⟨by decide, by decide, ⟨by decide, by decide, by decide, by decide, by decide, by decide⟩,
      ⟨by decide, by decide, by decide, by decide, by decide, by decide, by decide, by decide, by decide, by decide,
        by decide, by decide, by decide⟩, by decide⟩, by decide, by decide⟩

theorem witness_OutputGrowsOnlyByAcceptedBytes :
    nextIs (step sendingState) (fun t => decide (t.out ≠ sendingState.out)) = true := by decide

theorem witness_InputIsTakenInOrderOnlyWhileReceiving :
    nextIs (step receivingState) (fun t => decide (t.rxIn ≠ receivingState.rxIn)) = true ∧
      nextIs (step (State.reset.scheduled [.offer .closed])) (fun t => decide (t.rxIn ≠ State.reset.rxIn)) = true ∧
      rxFailedState.rxInEnded = true := by decide

theorem witness_EnginesAreIndependent :
    .encode ∈ txOperations ∧ .decode ∈ rxOperations ∧ (∃ t, exec .encode queryState = .next t) ∧
      (∃ t, exec .decode (decodable frame6) = .next t) ∧ (∃ t, txStep sendingState = .next t) ∧
      ∃ t, rxStep receivingState = .next t :=
  ⟨by decide, by decide, ⟨_, rfl⟩, ⟨_, rfl⟩, ⟨_, rfl⟩, _, rfl⟩

theorem witness_EachBufferHasItsWriters :
    let s : State := { queryState with mem := memOf 0x200 [0#8] }
    nextIs (step (s.withFetchWord 16 1)) (fun t => decide (Memory.read t.mem 0x200 ≠ Memory.read s.mem 0x200)) = true := by
  decide

end Sys2Proof.Machine.Tests
end

/-! The fields of GSTATUS (10_state.md R16): its bits one by one, and OPERR as a field that only a host write to OP
changes. -/

namespace Sys2Proof.Machine

/-! ### The bits of GSTATUS -/

/-- A flag placed at bit `i` stands there and nowhere else. -/
theorem getLsbD_flagBit (f : Bool) {i : Nat} (hi : i < 16) (j : Nat) :
    (flagBit f i).getLsbD j = (f && decide (j = i)) := by
  rcases Nat.lt_trichotomy j i with h | rfl | h
  · simp [flagBit, h, Nat.ne_of_lt h]
  · simp [flagBit, hi]
  · have hj : j - i ≠ 0 := by omega
    simp [flagBit, hj, Nat.ne_of_gt h]

/-- GSTATUS bit by bit, as 43_control.md R85 assembles it. -/
theorem getLsbD_gstatus (s : State) {j : Nat} (hj : j < 16) :
    (gstatus s).getLsbD j =
      ((decide (4 ≤ j) && s.opErr.code.getLsbD (j - 4)) || (rxFailed s && decide (j = 3)) ||
        (txFailed s && decide (j = 2)) || (rxBusy s && decide (j = 1)) || (txBusy s && decide (j = 0))) := by
  have hcode : (s.opErr.code.zeroExtend 16 <<< 4).getLsbD j =
      (decide (4 ≤ j) && s.opErr.code.getLsbD (j - 4)) := by
    by_cases h : j < 4
    · simp [h]
    · simp [h, hj, Nat.le_of_not_lt h]
  simp only [gstatus, BitVec.getLsbD_or, hcode, getLsbD_flagBit _ (show 3 < 16 by decide),
    getLsbD_flagBit _ (show 2 < 16 by decide), getLsbD_flagBit _ (show 1 < 16 by decide),
    getLsbD_flagBit _ (show 0 < 16 by decide)]

/-- From bit 4 up GSTATUS is OPERR's code, zero above its three bits. -/
theorem getLsbD_gstatus_high (s : State) {i : Nat} (hi : i < 12) :
    (gstatus s).getLsbD (4 + i) = s.opErr.code.getLsbD i := by
  rw [getLsbD_gstatus s (by omega)]
  have h3 : 4 + i ≠ 3 := by omega
  have h2 : 4 + i ≠ 2 := by omega
  have h1 : 4 + i ≠ 1 := by omega
  simp [h3, h2, h1]

theorem gstatus_txBusy_iff (s : State) : (gstatus s).getLsbD 0 = true ↔ s.phaseTx = .send := by
  rw [getLsbD_gstatus s (by decide)]; simp [txBusy]

theorem gstatus_rxBusy_iff (s : State) : (gstatus s).getLsbD 1 = true ↔ s.phaseRx = .recv := by
  rw [getLsbD_gstatus s (by decide)]; simp [rxBusy]

theorem gstatus_txFailed_iff (s : State) : (gstatus s).getLsbD 2 = true ↔ s.phaseTx = .failed := by
  rw [getLsbD_gstatus s (by decide)]; simp [txFailed]

theorem gstatus_rxFailed_iff (s : State) : (gstatus s).getLsbD 3 = true ↔ s.phaseRx = .failed := by
  rw [getLsbD_gstatus s (by decide)]; simp [rxFailed]

theorem gstatus_opErr_field (s : State) : (gstatus s).extractLsb' 4 3 = s.opErr.code := by
  refine BitVec.eq_of_getLsbD_eq fun i hi => ?_
  rw [BitVec.getLsbD_extractLsb', getLsbD_gstatus_high s (by omega)]
  simp [hi]

theorem gstatus_reserved_field (s : State) : (gstatus s).extractLsb' 7 9 = 0#9 := by
  refine BitVec.eq_of_getLsbD_eq fun i hi => ?_
  have hcode : s.opErr.code.getLsbD (3 + i) = false := BitVec.getLsbD_of_ge _ _ (by omega)
  rw [BitVec.getLsbD_extractLsb', show 7 + i = 4 + (3 + i) by omega, getLsbD_gstatus_high s (by omega), hcode]
  simp

/-- OPERR takes no value from 4 to 7 (93_implementation_defined.md I7). -/
theorem opErr_code_le (e : OpErr) : e.code.toNat ≤ 3 := by
  cases e <;> decide

/-! ### What leaves OPERR unchanged -/

/-- No step of the transmit engine changes OPERR (42_transport_framing.md R78). -/
theorem txStep_opErr {s t : State} (h : txStep s = .next t) : t.opErr = s.opErr := by
  rcases txStep_cases h with ⟨-, rfl⟩ | ⟨r, as, -, -, -, ⟨-, rfl⟩ | ⟨-, rfl⟩⟩
  · rfl
  · rcases txAccepted_cases (txf s s.txSent.toNat) { s with txAnswers := as } with ⟨-, e⟩ | ⟨-, e⟩ <;> rw [e]
  · rfl

/-- No step of the receive engine changes OPERR (42_transport_framing.md R81, R82). -/
theorem rxStep_opErr {s t : State} (h : rxStep s = .next t) : t.opErr = s.opErr := by
  rcases rxStep_cases h with ⟨-, rfl⟩ | ⟨b, es, -, -, -, -, rfl⟩ | ⟨e, es, -, -, -, -, rfl⟩
  · rfl
  · rcases rxFinish_cases (rxStored b { s with rxIn := es }) with ⟨-, e⟩ | ⟨-, e⟩ <;> rw [e] <;> simp
  · rfl

/-- No host write elsewhere than to OP changes OPERR (43_control.md R86). -/
theorem memWrite_opErr {s t : State} {a : Addr} {v : Word} (ha : a ≠ 0x000#12) (h : memWrite a v s = .next t) :
    t.opErr = s.opErr := by
  rcases memWrite_cases ha h with
    rfl | ⟨-, rfl⟩ | ⟨-, rfl⟩ | ⟨-, rfl⟩ | ⟨-, -, rfl⟩ | ⟨_, -, -, rfl⟩ | ⟨_, -, -, -, rfl⟩ <;> rfl

/-- No event offered to the input channel changes OPERR (20_memory.md R47). -/
theorem offerEvent_opErr (e : RxEvent) (s : State) : (offerEvent e s).opErr = s.opErr := by
  rcases offerEvent_cases e s with h | ⟨-, -, h⟩ <;> rw [h]

/-- An action that changes OPERR is a host write to OP (10_state.md R16). -/
theorem perform_changes_opErr {x : Action} {s t : State} (h : perform x s = .next t) (hne : t.opErr ≠ s.opErr) :
    ∃ v, x = .hostWrite 0x000#12 v := by
  cases x with
  | hostRead a => exact absurd (Host.Outcome.next.inj h ▸ rfl) hne
  | hostWrite a v =>
    by_cases ha : a = 0x000#12
    · exact ⟨v, ha ▸ rfl⟩
    · exact absurd (memWrite_opErr ha h) hne
  | txStep => exact absurd (txStep_opErr h) hne
  | rxStep => exact absurd (rxStep_opErr h) hne
  | offer e => exact absurd (Host.Outcome.next.inj h ▸ offerEvent_opErr e s) hne
  | answer r => exact absurd (Host.Outcome.next.inj h ▸ rfl) hne

/-- A step that changes OPERR is a host write to OP (10_state.md R16). -/
theorem step_changes_opErr {s t : State} (h : step s = .next t) (hne : t.opErr ≠ s.opErr) :
    ∃ v rest, s.agenda = .hostWrite 0x000#12 v :: rest := by
  rcases step_cases h with ⟨-, rfl⟩ | ⟨x, rest, hagenda, hx⟩
  · exact absurd rfl hne
  · obtain ⟨v, rfl⟩ := perform_changes_opErr hx hne
    exact ⟨v, rest, hagenda⟩

/-- Settles O42: the fields of GSTATUS bit by bit, OPERR by what each agent's action leaves unchanged. -/
theorem gstatusFields : Obligations.GstatusFields :=
  ⟨fun s => ⟨gstatus_txBusy_iff s, gstatus_rxBusy_iff s, gstatus_txFailed_iff s, gstatus_rxFailed_iff s,
      gstatus_opErr_field s, opErr_code_le s.opErr, gstatus_reserved_field s⟩,
    fun _ _ h hne => step_changes_opErr h hne, by decide⟩

end Sys2Proof.Machine

/-! Host transactions stay local (20_memory.md R42): what a read depends on, what a host write elsewhere than to OP
leaves unchanged, and why a write to OP is not idempotent. -/

namespace Sys2Proof.Machine

section

variable {s t : State} {a b : Addr} {v : Word} {r : Reg}

/-! ### What a host read depends on -/

/-- A read depends on nothing but the register at its address and the buffer byte at its address
(43_control.md R85). -/
theorem memRead_congr (hreg : ∀ r : Reg, r.addr = b → readReg r t = readReg r s)
    (hmem : Memory.read t.mem b.toNat = Memory.read s.mem b.toNat) : memRead b t = memRead b s := by
  unfold memRead
  rcases locate_cases b with ⟨r, e, hr, -⟩ | ⟨i, e, hi, -⟩ | ⟨i, e, hi, -⟩ | ⟨i, e, hi, -⟩ | ⟨e, -⟩ <;> rw [e]
  · exact hreg r hr
  · rw [hi] at hmem
    exact congrArg (BitVec.zeroExtend 16) hmem
  · rw [hi] at hmem
    exact congrArg (BitVec.zeroExtend 16) hmem
  · rw [hi] at hmem
    exact congrArg (BitVec.zeroExtend 16) hmem

/-- No read sees the agenda or the record of host reads (log 3, log 9). -/
theorem memRead_agenda_hostReads (b : Addr) (s : State) (rest : List Action) (reads : List Word) :
    memRead b { s with agenda := rest, hostReads := reads } = memRead b s :=
  memRead_congr (fun r _ => by cases r <;> rfl) rfl

/-- With an entry on the agenda a step is that entry's action. -/
theorem step_of_agenda_cons {x : Action} {rest : List Action} (h : s.agenda = x :: rest) :
    step s = perform x { s with agenda := rest } := by
  simp only [step, h]

/-- A host read uses up its agenda entry and records the value read, and does nothing else (20_memory.md R42). -/
theorem step_hostRead {rest : List Action} (h : s.agenda = .hostRead a :: rest) :
    step s = .next { s with agenda := rest, hostReads := s.hostReads ++ [memRead a s] } := by
  have hread : memRead a { s with agenda := rest } = memRead a s := memRead_agenda_hostReads a s rest s.hostReads
  calc step s = .next (hostReadStep a { s with agenda := rest }) := step_of_agenda_cons h
    _ = _ := by rw [hostReadStep, hread]

/-- No location reads differently after a host read (20_memory.md R42). -/
theorem memRead_after_hostRead {rest : List Action} (h : s.agenda = .hostRead a :: rest) (hstep : step s = .next t)
    (b : Addr) : memRead b t = memRead b s := by
  obtain rfl := Host.Outcome.next.inj ((step_hostRead h).symm.trans hstep)
  exact memRead_agenda_hostReads b s rest _

/-! ### What a host write leaves unchanged -/

theorem readReg_txCmd_other (h : r ≠ .txCmd) (s : State) (x : Byte) :
    readReg r { s with txCmd := x } = readReg r s := by
  cases r with
  | txCmd => exact absurd rfl h
  | _ => rfl

theorem readReg_txCtrl_other (h : r ≠ .txCtrl) (s : State) (x : Byte) :
    readReg r { s with txCtrl := x } = readReg r s := by
  cases r with
  | txCtrl => exact absurd rfl h
  | _ => rfl

theorem readReg_txPlen_other (h : r ≠ .txPlen) (s : State) (x : Byte) :
    readReg r { s with txPlen := x } = readReg r s := by
  cases r with
  | txPlen => exact absurd rfl h
  | _ => rfl

theorem readReg_rxNbytes_other (h : r ≠ .rxNbytes) (s : State) (n : Count) :
    readReg r { s with rxNbytes := n } = readReg r s := by
  cases r with
  | rxNbytes => exact absurd rfl h
  | _ => rfl

theorem readReg_storeByte (r : Reg) (s : State) (n : Nat) (x : Byte) : readReg r (s.storeByte n x) = readReg r s := by
  cases r <;> rfl

/-- A host write elsewhere than to OP changes no register but the one at its address (43_control.md R86). -/
theorem readReg_memWrite_other (ha : a ≠ 0x000#12) (h : memWrite a v s = .next t) (hr : r.addr ≠ a) :
    readReg r t = readReg r s := by
  have hne : ∀ {q : Reg}, a = q.addr → r ≠ q := fun hq e => hr (e ▸ hq.symm)
  rcases memWrite_cases ha h with
    rfl | ⟨hq, rfl⟩ | ⟨hq, rfl⟩ | ⟨hq, rfl⟩ | ⟨hq, -, rfl⟩ | ⟨_, -, -, rfl⟩ | ⟨_, -, -, -, rfl⟩
  · rfl
  · exact readReg_txCmd_other (hne hq) s _
  · exact readReg_txCtrl_other (hne hq) s _
  · exact readReg_txPlen_other (hne hq) s _
  · exact readReg_rxNbytes_other (hne hq) s _
  · exact readReg_storeByte r s _ _
  · exact readReg_storeByte r s _ _

/-- A host write elsewhere than to OP changes no buffer byte but the one at its address (43_control.md R86). -/
theorem memory_read_memWrite_other {n : Nat} (ha : a ≠ 0x000#12) (h : memWrite a v s = .next t) (hn : n ≠ a.toNat) :
    Memory.read t.mem n = Memory.read s.mem n := by
  rcases memWrite_cases ha h with
    rfl | ⟨-, rfl⟩ | ⟨-, rfl⟩ | ⟨-, rfl⟩ | ⟨-, -, rfl⟩ | ⟨_, -, -, rfl⟩ | ⟨_, -, -, -, rfl⟩
  · rfl
  · rfl
  · rfl
  · rfl
  · rfl
  · exact read_write_other s.mem _ hn
  · exact read_write_other s.mem _ hn

/-- A host write elsewhere than to OP changes what no other location reads (20_memory.md R42). -/
theorem memRead_memWrite_other (ha : a ≠ 0x000#12) (h : memWrite a v s = .next t) (hb : b ≠ a) :
    memRead b t = memRead b s :=
  memRead_congr (fun _ hr => readReg_memWrite_other ha h (hr ▸ hb))
    (memory_read_memWrite_other ha h fun e => hb (BitVec.eq_of_toNat_eq e))

/-- The fields a host write elsewhere than to OP can reach: the buffers and the four RW registers
(43_control.md R86). -/
theorem memWrite_frame (ha : a ≠ 0x000#12) (h : memWrite a v s = .next t) :
    { t with mem := s.mem, txCmd := s.txCmd, txCtrl := s.txCtrl, txPlen := s.txPlen, rxNbytes := s.rxNbytes } = s := by
  rcases memWrite_cases ha h with
    rfl | ⟨-, rfl⟩ | ⟨-, rfl⟩ | ⟨-, rfl⟩ | ⟨-, -, rfl⟩ | ⟨_, -, -, rfl⟩ | ⟨_, -, -, -, rfl⟩ <;> rfl

/-! ### A write to OP is not idempotent -/

/-- A host write of RECEIVE to OP runs RECEIVE (30_encoding.md R62, 43_control.md R87). -/
theorem memWrite_op_receive (s : State) : memWrite 0x000#12 0x0004#16 s = acceptRx s receiveOp := rfl

/-- A second RECEIVE finds the engine the first one started busy, and is rejected (43_control.md R87). -/
theorem second_receive_rejected (h : s.phaseRx = .idle) :
    ∃ t u, memWrite 0x000#12 0x0004#16 s = .next t ∧ memWrite 0x000#12 0x0004#16 t = .next u ∧
      t.opErr = .accepted ∧ u.opErr = .engineBusy :=
  ⟨_, _, (memWrite_op_receive s).trans (acceptRx_idle h receiveOp),
    (memWrite_op_receive _).trans (acceptRx_recv rfl receiveOp), rfl, rfl⟩

/-- A write to OP is not idempotent (20_memory.md R42): from power-on, RECEIVE written twice. -/
theorem memWrite_op_not_idempotent :
    ∃ (v : Word) (s t u : State), memWrite 0x000#12 v s = .next t ∧ memWrite 0x000#12 v t = .next u ∧ u ≠ t := by
  obtain ⟨t, u, hfirst, hsecond, ht, hu⟩ := second_receive_rejected (s := State.reset) rfl
  refine ⟨0x0004#16, State.reset, t, u, hfirst, hsecond, ?_⟩
  rintro rfl
  exact absurd (ht.symm.trans hu) (by decide)

end

/-- Settles O41: reads by what they depend on, writes by `memWrite_cases`, and RECEIVE written twice to OP. -/
theorem hostAccessesStayLocal : Obligations.HostAccessesStayLocal :=
  ⟨fun _ _ _ h => ⟨step_hostRead h, fun _ hstep b => memRead_after_hostRead h hstep b⟩,
    fun _ _ _ _ ha h => ⟨fun _ hb => memRead_memWrite_other ha h hb, memWrite_frame ha h⟩,
    fun v s => memWrite_op v s, memWrite_op_not_idempotent⟩

end Sys2Proof.Machine

/-! Illegal operation words (30_encoding.md R63): which words the decoder rejects, for which of its two reasons, and
what a host write of such a word to OP does. -/

namespace Sys2Proof

/-! ### The fields of an operation word as numbers -/

theorem toNat_opcodeField (v : Word) : (opcodeField v).toNat = v.toNat % 16 := by
  simp [opcodeField]

theorem toNat_mbzField (v : Word) : (mbzField v).toNat = v.toNat / 16 := by
  have hv := v.isLt
  simp only [mbzField, BitVec.extractLsb'_toNat, Nat.shiftRight_eq_div_pow]
  omega

theorem mbzField_eq_zero_iff (v : Word) : mbzField v = 0#12 ↔ v.toNat / 16 = 0 := by
  rw [← BitVec.toNat_inj, toNat_mbzField, BitVec.toNat_zero]

/-! ### The words the decoder rejects -/

/-- The OPCODEs 0x6 to 0xE name no operation (R62, R63). -/
theorem instrOfOpcode_eq_none {n : Nat} (hlo : 6 ≤ n) (hhi : n ≤ 14) : instrOfOpcode n = none := by
  interval_cases n <;> rfl

/-- Check 1 of R63. -/
theorem decode_of_reserved_bits {v : Word} (h : v.toNat / 16 ≠ 0) :
    decode v = .error (.reservedBitsSet (mbzField v)) :=
  if_neg (mt (mbzField_eq_zero_iff v).mp h)

/-- Check 2 of R63, which is made once check 1 has passed. -/
theorem decode_of_unassigned_opcode {v : Word} (hmbz : v.toNat / 16 = 0) (hlo : 6 ≤ v.toNat % 16)
    (hhi : v.toNat % 16 ≤ 14) : decode v = .error (.opcodeUnassigned (opcodeField v)) := by
  have hop : instrOfOpcode (opcodeField v).toNat = none := by
    rw [toNat_opcodeField]
    exact instrOfOpcode_eq_none hlo hhi
  rw [decode, if_pos ((mbzField_eq_zero_iff v).mpr hmbz), hop]

/-- A word that fails either check of R63 is rejected. -/
theorem decode_eq_error_of_illegal {v : Word}
    (h : v.toNat / 16 ≠ 0 ∨ (6 ≤ v.toNat % 16 ∧ v.toNat % 16 ≤ 14)) : ∃ e, decode v = .error e := by
  by_cases hmbz : v.toNat / 16 = 0
  · obtain ⟨hlo, hhi⟩ := h.resolve_left (not_not_intro hmbz)
    exact ⟨_, decode_of_unassigned_opcode hmbz hlo hhi⟩
  · exact ⟨_, decode_of_reserved_bits hmbz⟩

namespace Machine

/-! ### What a rejected word does -/

/-- A word the decoder rejects, for whichever reason, has no effect but on OPERR (R63, 43_control.md R87). -/
theorem dispatchWord_of_decode_error {v : Word} {e : IllegalWord} (h : decode v = .error e) (s : State) :
    dispatchWord v s = .next (s.setOpErr .illegalOp) := by
  rw [dispatchWord, h]

theorem dispatchWord_of_illegal {v : Word} (h : v.toNat / 16 ≠ 0 ∨ (6 ≤ v.toNat % 16 ∧ v.toNat % 16 ≤ 14))
    (s : State) : dispatchWord v s = .next (s.setOpErr .illegalOp) := by
  obtain ⟨_, he⟩ := decode_eq_error_of_illegal h
  exact dispatchWord_of_decode_error he s

/-- A host write to OP uses up its agenda entry and dispatches the word written (43_control.md R86, R87). -/
theorem step_hostWrite_op {s : State} {v : Word} {rest : List Action}
    (h : s.agenda = .hostWrite 0x000#12 v :: rest) : step s = dispatchWord v { s with agenda := rest } :=
  (step_of_agenda_cons h).trans (memWrite_op v _)

/-- Settles O10: the step dispatches the word, and the dispatch of a word the decoder rejects writes OPERR only. -/
theorem illegalWordSetsOnlyOperr : Obligations.IllegalWordSetsOnlyOperr :=
  fun _ _ _ hagenda hillegal => ⟨(step_hostWrite_op hagenda).trans (dispatchWord_of_illegal hillegal _), rfl⟩

end Machine

end Sys2Proof

/-! The frame codec as functions (40_frame_codec.md R66 to R68, R72, R73): what the encoder gives for which params, what
the decoder answers to a buffer of a given form, and what one changed byte does to a frame. -/

namespace Sys2Proof.Machine

section

variable {bs : List Byte} {cmd ctrl : Byte} {ps : List Byte}

/-! ### The encoder -/

theorem encodeFrame_of_le (h : ps.length ≤ 253) : encodeFrame cmd ctrl ps = .ok (frameBytes cmd ctrl ps) :=
  if_neg (Nat.not_lt.mpr h)

theorem encodeFrame_of_gt (h : 253 < ps.length) : encodeFrame cmd ctrl ps = .error .paramsTooLong := if_pos h

theorem frameBytes_getElem?_param {i : Nat} (h : i < ps.length) :
    (frameBytes cmd ctrl ps)[5 + i]? = ps[i]? := by
  rw [Nat.add_comm]
  simp [frameBytes, List.getElem?_append_left, h]

theorem frameBytes_getElem?_checksum :
    (frameBytes cmd ctrl ps)[5 + ps.length]? = some (checksum cmd ctrl ps) := by
  rw [Nat.add_comm]
  simp [frameBytes]

/-! ### The decoder on a buffer of a given form -/

/-- A buffer whose header, length byte and size are those of a frame: all that the decoder checks before the checksum
(40_frame_codec.md R67, R68). -/
structure Framed (bs : List Byte) : Prop where
  header : headerGood bs
  two_le : 2 ≤ (byteAt bs 2).toNat
  size : bs.length = (byteAt bs 2).toNat + 4

theorem decodeFrame_of_bad_header (hn : 6 ≤ bs.length) (hh : ¬headerGood bs) : decodeFrame bs = .error .badHeader := by
  rcases decodeFrame_cases bs with ⟨c, -⟩ | ⟨-, -, e⟩ | ⟨-, c, -⟩ | ⟨-, c, -⟩ | ⟨c, -⟩ | ⟨c, -⟩ | ⟨c, -⟩
  · omega
  · exact e
  all_goals exact absurd c hh

/-- A length byte below 2, or one that leaves bytes over (60_exceptions.md R92). -/
theorem decodeFrame_of_bad_length (hn : 6 ≤ bs.length) (hh : headerGood bs)
    (hl : (byteAt bs 2).toNat < 2 ∨ (byteAt bs 2).toNat + 4 < bs.length) : decodeFrame bs = .error .badLength := by
  rcases decodeFrame_cases bs with
    ⟨c, -⟩ | ⟨-, c, -⟩ | ⟨-, -, -, e⟩ | ⟨-, -, c₂, c, -⟩ | ⟨-, -, -, e⟩ | ⟨-, c₂, c, -⟩ | ⟨-, c₂, c, -⟩
  · omega
  · exact absurd hh c
  · exact e
  · omega
  · exact e
  · omega
  · omega

/-- A length byte that asks for more bytes than there are (60_exceptions.md R92). -/
theorem decodeFrame_of_too_few (hn : 6 ≤ bs.length) (hh : headerGood bs) (hl : bs.length < (byteAt bs 2).toNat + 4) :
    decodeFrame bs = .error .truncated := by
  rcases decodeFrame_cases bs with
    ⟨-, e⟩ | ⟨-, c, -⟩ | ⟨-, -, c, -⟩ | ⟨-, -, -, -, e⟩ | ⟨-, -, c, -⟩ | ⟨-, -, c, -⟩ | ⟨-, -, c, -⟩
  · exact e
  · exact absurd hh c
  · omega
  · exact e
  · omega
  · omega
  · omega

/-- Only the checksum is left to check. -/
theorem decodeFrame_of_framed (h : Framed bs) :
    decodeFrame bs = if expectedOf bs = (messageOf bs).checksum then .ok (messageOf bs)
      else .error (.integrityMismatch (expectedOf bs) (messageOf bs).checksum) := by
  obtain ⟨hh, hl, hn⟩ := h
  rcases decodeFrame_cases bs with
    ⟨c, -⟩ | ⟨-, c, -⟩ | ⟨-, -, c, -⟩ | ⟨-, -, -, c, -⟩ | ⟨-, -, c, -⟩ | ⟨-, -, -, c, e⟩ | ⟨-, -, -, c, e⟩
  · omega
  · exact absurd hh c
  · omega
  · omega
  · omega
  · rw [if_neg c, e]
  · rw [if_pos c, e]

theorem exists_decodeFrame_eq_ok_iff :
    (∃ m, decodeFrame bs = .ok m) ↔ Framed bs ∧ expectedOf bs = (messageOf bs).checksum := by
  constructor
  · rintro ⟨m, hm⟩
    rcases decodeFrame_cases bs with
      ⟨-, e⟩ | ⟨-, -, e⟩ | ⟨-, -, -, e⟩ | ⟨-, -, -, -, e⟩ | ⟨-, -, -, e⟩ | ⟨-, -, -, -, e⟩ | ⟨hh, hl, hn, hc, -⟩
    on_goal 7 => exact ⟨⟨hh, hl, hn⟩, hc⟩
    all_goals cases hm.symm.trans e
  · rintro ⟨hf, hc⟩
    exact ⟨_, (decodeFrame_of_framed hf).trans (if_pos hc)⟩

/-! ### The decoder on an encoded frame -/

/-- The Message an encoded frame carries. -/
def sentMessage (cmd ctrl : Byte) (ps : List Byte) : Message where
  length := BitVec.ofNat 8 (ps.length + 2)
  commandId := cmd
  control := ctrl
  params := ps
  checksum := checksum cmd ctrl ps

theorem toNat_lengthByte_frameBytes (h : ps.length ≤ 253) :
    (byteAt (frameBytes cmd ctrl ps) 2).toNat = ps.length + 2 := lengthByte_toNat h

theorem framed_frameBytes (h : ps.length ≤ 253) : Framed (frameBytes cmd ctrl ps) where
  header := ⟨rfl, rfl⟩
  two_le := by rw [toNat_lengthByte_frameBytes h]; omega
  size := by rw [toNat_lengthByte_frameBytes h, length_frameBytes]

theorem messageOf_frameBytes (h : ps.length ≤ 253) :
    messageOf (frameBytes cmd ctrl ps) = sentMessage cmd ctrl ps := by
  have hc : byteAt (frameBytes cmd ctrl ps) (ps.length + 2 + 3) = checksum cmd ctrl ps := by
    rw [Nat.add_assoc, Nat.add_comm, byteAt_frameBytes_checksum]
  simp only [messageOf, toNat_lengthByte_frameBytes h, paramsOf_frameBytes, hc]
  rfl

theorem expectedOf_frameBytes (h : ps.length ≤ 253) :
    expectedOf (frameBytes cmd ctrl ps) = checksum cmd ctrl ps := by
  simp only [expectedOf, toNat_lengthByte_frameBytes h, paramsOf_frameBytes, byteAt_frameBytes_three,
    byteAt_frameBytes_four]

/-- Decode of Encode is the identity on messages (40_frame_codec.md R72). -/
theorem decodeFrame_frameBytes (h : ps.length ≤ 253) :
    decodeFrame (frameBytes cmd ctrl ps) = .ok (sentMessage cmd ctrl ps) := by
  rw [decodeFrame_of_framed (framed_frameBytes h), messageOf_frameBytes h, expectedOf_frameBytes h]
  exact if_pos rfl

/-! ### One changed byte -/

/-- The addends of a buffer's checksum: the `L` bytes from the command id up (41_checksum.md R74). -/
def body (bs : List Byte) : List Byte := (bs.drop 3).take (byteAt bs 2).toNat

theorem length_body (h : Framed bs) : (body bs).length = (byteAt bs 2).toNat := by
  have := h.size
  simp [body]; omega

theorem byteAt_body {i : Nat} (h : i < (byteAt bs 2).toNat) : byteAt (body bs) i = byteAt bs (3 + i) := by
  rw [byteAt, body, List.getD_eq_getElem?_getD, List.getElem?_take_of_lt h, List.getElem?_drop]
  rfl

theorem body_eq_cons (h : Framed bs) :
    body bs = byteAt bs 3 :: byteAt bs 4 :: paramsOf bs (byteAt bs 2).toNat := by
  obtain ⟨-, hl, hn⟩ := h
  obtain ⟨p, hp⟩ := Nat.exists_eq_add_of_le' hl
  have h3 : 3 < bs.length := by omega
  have h4 : 4 < bs.length := by omega
  rw [body, paramsOf, hp, List.drop_eq_getElem_cons h3, List.drop_eq_getElem_cons h4,
    List.take_succ_cons, List.take_succ_cons]
  simp [byteAt, h3, h4]

/-- The decoder's checksum as one sum over the body. -/
theorem expectedOf_eq_neg_sum (h : Framed bs) : expectedOf bs = -((body bs).foldl (· + ·) 0#8) := by
  rw [body_eq_cons h, expectedOf, checksum, List.foldl_cons, List.foldl_cons, BitVec.zero_add]

variable {k : Nat} {b : Byte}

theorem byteAt_set_self (hk : k < bs.length) : byteAt (bs.set k b) k = b := by
  rw [byteAt_set bs k b k hk, if_pos rfl]

theorem byteAt_set_ne {i : Nat} (hk : k < bs.length) (h : i ≠ k) : byteAt (bs.set k b) i = byteAt bs i := by
  rw [byteAt_set bs k b i hk, if_neg h]

theorem headerGood_set (hh : headerGood bs) (hk : k < bs.length) (hk2 : 2 ≤ k) : headerGood (bs.set k b) := by
  rw [headerGood, byteAt_set_ne hk (by omega), byteAt_set_ne hk (by omega)]
  exact hh

/-- A header byte changed to another value is no header byte. -/
theorem not_headerGood_set (hh : headerGood bs) (hk : k < bs.length) (hk2 : k < 2) (hb : b ≠ byteAt bs k) :
    ¬headerGood (bs.set k b) := by
  rintro ⟨h0, h1⟩
  interval_cases k
  · exact hb ((byteAt_set_self hk).symm.trans (h0.trans hh.1.symm))
  · exact hb ((byteAt_set_self hk).symm.trans (h1.trans hh.2.symm))

/-- A change after the length byte leaves all but the checksum as it was. -/
theorem framed_set (h : Framed bs) (hk : k < bs.length) (hk3 : 3 ≤ k) : Framed (bs.set k b) := by
  have h2 : byteAt (bs.set k b) 2 = byteAt bs 2 := byteAt_set_ne hk (by omega)
  exact ⟨headerGood_set h.header hk (by omega), h2.symm ▸ h.two_le, by rw [h2, List.length_set]; exact h.size⟩

theorem body_set (hk : k < bs.length) (hk3 : 3 ≤ k) : body (bs.set k b) = (body bs).set (k - 3) b := by
  rw [body, body, byteAt_set_ne hk (by omega), List.drop_set, if_neg (by omega), List.take_set]

/-- Changing one addend changes the checksum the decoder computes (41_checksum.md R75). -/
theorem expectedOf_set_body_ne (h : Framed bs) (hk3 : 3 ≤ k) (hk : k < (byteAt bs 2).toNat + 3)
    (hb : b ≠ byteAt bs k) : expectedOf (bs.set k b) ≠ expectedOf bs := by
  have hlen : k < bs.length := by have := h.size; omega
  have hold : byteAt (body bs) (k - 3) = byteAt bs k := by
    rw [byteAt_body (by omega), Nat.add_sub_cancel' hk3]
  have hnew : b = byteAt (body bs) (k - 3) + (b - byteAt bs k) := by rw [hold]; bv_omega
  have hsum : (body (bs.set k b)).foldl (· + ·) 0#8 = (body bs).foldl (· + ·) 0#8 + (b - byteAt bs k) := by
    rw [body_set hlen hk3, ← foldl_add_set _ (body bs) 0#8 (k - 3) (by rw [length_body h]; omega), ← hnew]
  rw [expectedOf_eq_neg_sum (framed_set h hlen hk3), expectedOf_eq_neg_sum h, hsum]
  bv_omega

/-- The checksum byte is no addend. -/
theorem expectedOf_set_checksum (h : Framed bs) :
    expectedOf (bs.set ((byteAt bs 2).toNat + 3) b) = expectedOf bs := by
  have hlen : (byteAt bs 2).toNat + 3 < bs.length := by have := h.size; omega
  have hl := h.two_le
  rw [expectedOf_eq_neg_sum (framed_set h hlen (by omega)), expectedOf_eq_neg_sum h, body_set hlen (by omega),
    List.set_eq_of_length_le (by rw [length_body h]; omega)]

theorem checksum_messageOf_set (hk : k < bs.length) (hk3 : 3 ≤ k) :
    (messageOf (bs.set k b)).checksum = byteAt (bs.set k b) ((byteAt bs 2).toNat + 3) := by
  rw [messageOf, byteAt_set_ne hk (by omega)]

/-- A frame whose checksum matches, with one byte of its body changed. -/
theorem decodeFrame_set_body (h : Framed bs) (hc : expectedOf bs = (messageOf bs).checksum) (hk3 : 3 ≤ k)
    (hk : k < (byteAt bs 2).toNat + 3) (hb : b ≠ byteAt bs k) :
    decodeFrame (bs.set k b) = .error (.integrityMismatch (expectedOf (bs.set k b)) (messageOf bs).checksum) := by
  have hlen : k < bs.length := by have := h.size; omega
  have hrcv : (messageOf (bs.set k b)).checksum = (messageOf bs).checksum :=
    (checksum_messageOf_set hlen hk3).trans (byteAt_set_ne hlen (by omega))
  rw [decodeFrame_of_framed (framed_set h hlen hk3), hrcv, if_neg (hc ▸ expectedOf_set_body_ne h hk3 hk hb)]

/-- A frame whose checksum matches, with the checksum byte changed. -/
theorem decodeFrame_set_checksum (h : Framed bs) (hc : expectedOf bs = (messageOf bs).checksum)
    (hb : b ≠ (messageOf bs).checksum) :
    decodeFrame (bs.set ((byteAt bs 2).toNat + 3) b) = .error (.integrityMismatch (expectedOf bs) b) := by
  have hlen : (byteAt bs 2).toNat + 3 < bs.length := by have := h.size; omega
  have hl := h.two_le
  have hrcv : (messageOf (bs.set ((byteAt bs 2).toNat + 3) b)).checksum = b :=
    (checksum_messageOf_set hlen (by omega)).trans (byteAt_set_self hlen)
  rw [decodeFrame_of_framed (framed_set h hlen (by omega)), hrcv, expectedOf_set_checksum h,
    if_neg (hc ▸ hb.symm)]

end

/-- The table of R73 for one encoded frame, read off the place of the changed byte. -/
theorem decodeFrame_set_frameBytes {cmd ctrl : Byte} {ps : List Byte} (hp : ps.length ≤ 253) {k : Nat} {b : Byte}
    (hk : k < (frameBytes cmd ctrl ps).length) (hb : b ≠ byteAt (frameBytes cmd ctrl ps) k) :
    let f := frameBytes cmd ctrl ps
    (k < 2 → decodeFrame (f.set k b) = .error .badHeader) ∧
    (k = 2 → (b.toNat < 2 ∨ b.toNat < ps.length + 2) → decodeFrame (f.set k b) = .error .badLength) ∧
    (k = 2 → ps.length + 2 < b.toNat → decodeFrame (f.set k b) = .error .truncated) ∧
    (3 ≤ k → k < 5 + ps.length →
      ∃ e, decodeFrame (f.set k b) = .error (.integrityMismatch e (checksum cmd ctrl ps))) ∧
    (k = 5 + ps.length → decodeFrame (f.set k b) = .error (.integrityMismatch (checksum cmd ctrl ps) b)) := by
  have hf : Framed (frameBytes cmd ctrl ps) := framed_frameBytes hp
  have hl := toNat_lengthByte_frameBytes (cmd := cmd) (ctrl := ctrl) hp
  have hexp := expectedOf_frameBytes (cmd := cmd) (ctrl := ctrl) hp
  have hrcv : (messageOf (frameBytes cmd ctrl ps)).checksum = checksum cmd ctrl ps := by
    rw [messageOf_frameBytes hp]; rfl
  have hn : ((frameBytes cmd ctrl ps).set k b).length = ps.length + 6 := by simp
  refine ⟨fun h => ?_, fun h hlt => ?_, fun h hgt => ?_, fun hk3 hlt => ?_, fun h => ?_⟩
  · exact decodeFrame_of_bad_header (by omega) (not_headerGood_set hf.header hk h hb)
  · subst h
    refine decodeFrame_of_bad_length (by omega) (headerGood_set hf.header hk (by omega)) ?_
    rw [byteAt_set_self hk, hn]; omega
  · subst h
    refine decodeFrame_of_too_few (by omega) (headerGood_set hf.header hk (by omega)) ?_
    rw [byteAt_set_self hk, hn]; omega
  · exact ⟨_, hrcv ▸ decodeFrame_set_body hf (hexp.trans hrcv.symm) hk3 (by omega) hb⟩
  · have hplace : k = (byteAt (frameBytes cmd ctrl ps) 2).toNat + 3 := by omega
    subst hplace
    exact hexp ▸ decodeFrame_set_checksum hf (hexp.trans hrcv.symm) hb

/-- Settles O13: the places of `frameBytes`, one by one. -/
theorem encodedFrameLayout : Obligations.EncodedFrameLayout :=
  fun cmd ctrl ps => ⟨encodeFrame_of_gt, fun h => ⟨frameBytes cmd ctrl ps, encodeFrame_of_le h,
    (length_frameBytes cmd ctrl ps).trans (Nat.add_comm _ _), rfl, rfl, ⟨_, rfl, lengthByte_toNat h⟩, rfl, rfl,
    fun _ => frameBytes_getElem?_param, frameBytes_getElem?_checksum⟩⟩

/-- Settles O15: the checks of a successful decode, in the order R68 lists them. -/
theorem decodeSucceedsIffWellFormed : Obligations.DecodeSucceedsIffWellFormed := by
  intro bs
  rw [exists_decodeFrame_eq_ok_iff, Nat.add_sub_add_right (byteAt bs 2).toNat 3 2]
  constructor
  · rintro ⟨⟨⟨h0, h1⟩, hl, hn⟩, hc⟩
    exact ⟨hn, hl, h0, h1, hc.symm⟩
  · rintro ⟨hn, hl, h0, h1, hc⟩
    exact ⟨⟨⟨h0, h1⟩, hl, hn⟩, hc.symm⟩

/-- Settles O18: the table by the place of the change, and two changed bytes whose sum stays the same (command id and
control exchanged). -/
theorem singleByteChangeIsCaught : Obligations.SingleByteChangeIsCaught :=
  ⟨fun _ _ _ hp => ⟨⟨_, decodeFrame_frameBytes hp, rfl⟩, fun _ _ hk hb => decodeFrame_set_frameBytes hp hk hb⟩,
    frameBytes 1#8 2#8 [], sentMessage 1#8 2#8 [], sentMessage 2#8 1#8 [], 3, 4, 2#8, 1#8, by decide⟩

end Sys2Proof.Machine

/-! ENCODE and DECODE (40_frame_codec.md R70, R71): the state each answers, and the way of a message through both. -/

namespace Sys2Proof.Machine

section

variable {s t u : State}

/-! ### ENCODE -/

/-- The frame ENCODE builds from the TX operands (40_frame_codec.md R70). -/
def txFrameBytes (s : State) : List Byte := frameBytes s.txCmd s.txCtrl (txParams s)

/-- The state ENCODE answers in IDLE with P at most 253 (40_frame_codec.md R70). -/
def encoded (s : State) : State :=
  { s with
    opErr := .accepted
    mem := Memory.writeBytes s.mem Config.txFrameBase (txFrameBytes s)
    txFlen := BitVec.ofNat 9 (6 + plen s)
    txCsum := checksum s.txCmd s.txCtrl (txParams s)
    txStatus := .ok }

theorem exec_encode_of_le (hidle : s.phaseTx = .idle) (h : plen s ≤ 253) : exec .encode s = .next (encoded s) :=
  (acceptTx_idle hidle encodeOp).trans (encodeOp_ok (s := s.setOpErr .accepted) h)

theorem exec_encode_of_gt (hidle : s.phaseTx = .idle) (h : 253 < plen s) :
    exec .encode s = .next { s with opErr := .accepted, txFlen := 0#9, txStatus := .paramsTooLong } :=
  (acceptTx_idle hidle encodeOp).trans (encodeOp_tooLong (s := s.setOpErr .accepted) h)

theorem length_txParams (s : State) : (txParams s).length = plen s := length_readBytes _ _ _

theorem byteAt_txParams {i : Nat} (h : i < plen s) : byteAt (txParams s) i = txp s i := byteAt_readBytes _ _ h

theorem length_txFrameBytes (s : State) : (txFrameBytes s).length = 6 + plen s := by
  rw [txFrameBytes, length_frameBytes, length_txParams, Nat.add_comm]

theorem byteAt_txFrameBytes_param {i : Nat} (h : i < plen s) : byteAt (txFrameBytes s) (5 + i) = txp s i := by
  rw [txFrameBytes, byteAt_frameBytes_param _ _ _ (by rwa [length_txParams]), byteAt_txParams h]

theorem byteAt_txFrameBytes_checksum (s : State) :
    byteAt (txFrameBytes s) (5 + plen s) = checksum s.txCmd s.txCtrl (txParams s) :=
  length_txParams s ▸ byteAt_frameBytes_checksum s.txCmd s.txCtrl (txParams s)

theorem toNat_txFlen_encoded (h : plen s ≤ 253) : (encoded s).txFlen.toNat = 6 + plen s := by
  simp only [encoded, BitVec.toNat_ofNat]; omega

theorem txf_encoded {i : Nat} (h : i < 6 + plen s) : txf (encoded s) i = byteAt (txFrameBytes s) i := by
  simp only [txf, encoded]
  rw [read_writeBytes, if_pos (by rw [length_txFrameBytes]; omega), Nat.add_sub_cancel_left]

/-- ENCODE writes no buffer byte outside TX_FRAME[0 .. 6+P). -/
theorem read_encoded_outside {a : Nat} (h : a < 0x200 ∨ 0x206 + plen s ≤ a) :
    Memory.read (encoded s).mem a = Memory.read s.mem a := by
  simp only [encoded]
  rw [read_writeBytes, if_neg (by rw [length_txFrameBytes, Config.txFrameBase]; omega)]

/-- The host cannot write TX_FRAME (20_memory.md R38, 43_control.md R86). -/
theorem txf_memWrite {a : Addr} {v : Word} (ha : a ≠ 0x000#12) (h : memWrite a v t = .next u) {i : Nat} (hi : i < 259) :
    txf u i = txf t i := by
  rcases memWrite_cases ha h with
    rfl | ⟨-, rfl⟩ | ⟨-, rfl⟩ | ⟨-, rfl⟩ | ⟨-, -, rfl⟩ | ⟨_, hj, hlt, rfl⟩ | ⟨_, hj, -, -, rfl⟩
  iterate 5 exact rfl
  all_goals exact read_write_other _ _ (by rw [Config.txFrameBase]; omega)

/-- TRANSMIT of no frame sends nothing (42_transport_framing.md R77). -/
theorem exec_transmit_of_no_frame (hidle : s.phaseTx = .idle) (h : s.txFlen = 0#9) :
    exec .transmit s = .next { s with opErr := .accepted, txSent := 0#9, txStatus := .ok } :=
  (acceptTx_idle hidle transmitOp).trans (if_pos h)

/-! ### DECODE -/

/-- DECODE in IDLE with a legal RX_NBYTES (40_frame_codec.md R71). -/
theorem exec_decode_of_le (hidle : s.phaseRx = .idle) (h : s.rxNbytes.toNat ≤ 259) :
    exec .decode s = .next (publish (decodeFrame (rxBuffer s s.rxNbytes.toNat)) (s.setOpErr .accepted)) :=
  (acceptRx_idle hidle decodeOp).trans (decodeOp_ok (s := s.setOpErr .accepted) h)

theorem setOpErr_eq_self {e : OpErr} (h : s.opErr = e) : s.setOpErr e = s := by
  subst h; rfl

/-- DECODE repeated gives the same result (40_frame_codec.md R71): it reads only what it leaves unchanged. -/
theorem exec_decode_again (hidle : s.phaseRx = .idle) (h : s.rxNbytes.toNat ≤ 259) (ht : exec .decode s = .next t) :
    exec .decode t = .next t := by
  obtain rfl := Host.Outcome.next.inj ((exec_decode_of_le hidle h).symm.trans ht)
  generalize hq : decodeFrame (rxBuffer s s.rxNbytes.toNat) = q
  have hbuf : rxBuffer (publish q (s.setOpErr .accepted)) s.rxNbytes.toNat = rxBuffer s s.rxNbytes.toNat := by
    simp [rxBuffer]
  have hopErr : (publish q (s.setOpErr .accepted)).setOpErr .accepted = publish q (s.setOpErr .accepted) :=
    setOpErr_eq_self (publish_opErr _ q)
  rw [exec_decode_of_le (by simpa using hidle) (by simpa using h), hopErr, publish_rxNbytes, setOpErr_rxNbytes, hbuf,
    hq, publish_publish]

/-! ### The round trip -/

/-- A receive side that holds the sender's frame image holds the frame ENCODE built. -/
theorem rxBuffer_of_copy (hp : plen s ≤ 253) (hcopy : ∀ i, i < (encoded s).txFlen.toNat → rxf u i = txf (encoded s) i) :
    rxBuffer u (6 + plen s) = txFrameBytes s := by
  rw [toNat_txFlen_encoded hp] at hcopy
  rw [← length_txFrameBytes s]
  refine readBytes_eq _ _ _ fun i hi => ?_
  rw [length_txFrameBytes] at hi
  exact (hcopy i hi).trans (txf_encoded hi)

/-- DECODE of a copy of the sender's frame image exposes the sender's message (40_frame_codec.md R72). -/
theorem exec_decode_of_copy (hp : plen s ≤ 253) (hidle : u.phaseRx = .idle) (hn : u.rxNbytes = (encoded s).txFlen)
    (hcopy : ∀ i, i < (encoded s).txFlen.toNat → rxf u i = txf (encoded s) i) :
    exec .decode u =
      .next (publish (.ok (sentMessage s.txCmd s.txCtrl (txParams s))) (u.setOpErr .accepted)) := by
  have hn' : u.rxNbytes.toNat = 6 + plen s := by rw [hn, toNat_txFlen_encoded hp]
  rw [exec_decode_of_le hidle (by omega), hn', rxBuffer_of_copy hp hcopy, txFrameBytes,
    decodeFrame_frameBytes (by rwa [length_txParams])]

/-- The parameter count a decode publishes is TX_PLEN. -/
theorem sentMessage_length_sub_two (s : State) :
    (sentMessage s.txCmd s.txCtrl (txParams s)).length - 2#8 = s.txPlen := by
  have hlen : (txParams s).length = s.txPlen.toNat := length_txParams s
  have := s.txPlen.isLt
  simp only [sentMessage, hlen]
  bv_omega

end

/-- Settles O21: rejected by `acceptTx_not_idle`, otherwise the state `encoded` and what its buffers read. -/
theorem encodeBuildsTheFrame : Obligations.EncodeBuildsTheFrame := by
  refine ⟨by decide, fun s => ⟨fun h => acceptTx_not_idle h encodeOp, fun hidle hp => ?_, fun hidle hp => ?_⟩⟩
  · have hlen : (txParams s).length ≤ 253 := (length_txParams s).trans_le hp
    have hplen : plen s = s.txPlen.toNat := rfl
    have hlength : (txf (encoded s) 2).toNat = s.txPlen.toNat + 2 := by
      rw [txf_encoded (by omega), txFrameBytes, toNat_lengthByte_frameBytes hlen, length_txParams, hplen]
    refine ⟨encoded s, exec_encode_of_le hidle hp, rfl, toNat_txFlen_encoded hp, txf_encoded (by omega),
      txf_encoded (by omega), hlength, txf_encoded (by omega), txf_encoded (by omega), fun i hi => ?_, ?_,
      fun _ => read_encoded_outside, fun _ _ _ ha h _ => txf_memWrite ha h⟩
    · rw [txf_encoded (by omega), byteAt_txFrameBytes_param hi]
    · exact (txf_encoded (by omega)).trans (byteAt_txFrameBytes_checksum s)
  · exact ⟨exec_encode_of_gt hidle hp, _, exec_transmit_of_no_frame hidle rfl, hidle, rfl⟩

/-- Settles O23: `publish` writes what R69 says and leaves the rest alone. -/
theorem decodePublishesTheResult : Obligations.DecodePublishesTheResult :=
  ⟨by decide, fun s => ⟨fun h => acceptRx_not_idle h decodeOp, fun hidle hn =>
    have ht := exec_decode_of_le hidle hn
    ⟨_, ht, publish_leaves (s.setOpErr .accepted) _, published_publish _ _, exec_decode_again hidle hn ht⟩⟩⟩

/-- Settles O19: on messages by `decodeFrame_frameBytes`, on states by the buffer the copy leaves to DECODE. -/
theorem encodeCopyDecodeRoundTrip : Obligations.EncodeCopyDecodeRoundTrip := by
  constructor
  · intro cmd ctrl ps hp
    exact ⟨_, _, encodeFrame_of_le hp, decodeFrame_frameBytes hp, rfl, rfl, rfl, lengthByte_toNat hp⟩
  · intro s t u htx hp ht hrx hn hcopy
    obtain rfl := Host.Outcome.next.inj ((exec_encode_of_le htx hp).symm.trans ht)
    refine ⟨_, exec_decode_of_copy hp hrx hn hcopy, rfl, rfl, rfl, rfl, sentMessage_length_sub_two s, fun i hi => ?_⟩
    calc rxf (publish (.ok (sentMessage s.txCmd s.txCtrl (txParams s))) (u.setOpErr .accepted)) (5 + i)
        = rxf u (5 + i) := rfl
      _ = txf (encoded s) (5 + i) := hcopy _ (by rw [toNat_txFlen_encoded hp, plen]; omega)
      _ = byteAt (txFrameBytes s) (5 + i) := txf_encoded (by rw [plen]; omega)
      _ = txp s i := byteAt_txFrameBytes_param hi

end Sys2Proof.Machine

/-! The checksum as a function of its addends (41_checksum.md R74, R75), and CHECKSUM as an operation (R76). -/

namespace Sys2Proof.Machine

section

variable {cmd ctrl cmd' ctrl' : Byte} {ps ps' : List Byte}

/-! ### The checksum as the negated sum of one list of addends -/

/-- The command id and the control byte are addends like the params (R74). -/
theorem checksum_eq_neg_foldl (cmd ctrl : Byte) (ps : List Byte) :
    checksum cmd ctrl ps = -((cmd :: ctrl :: ps).foldl (· + ·) 0#8) := by
  rw [checksum, List.foldl_cons, List.foldl_cons, BitVec.zero_add]

/-- Law 2 of R75: addition of bytes is commutative and associative. -/
theorem checksum_perm (h : (cmd :: ctrl :: ps).Perm (cmd' :: ctrl' :: ps')) :
    checksum cmd' ctrl' ps' = checksum cmd ctrl ps := by
  rw [checksum_eq_neg_foldl, checksum_eq_neg_foldl, h.foldl_eq]

/-- Law 4 of R75, for every place of the changed addend at once. -/
theorem checksum_of_set_addend {i : Nat} {d : Byte} (hi : i < (cmd :: ctrl :: ps).length)
    (h : cmd' :: ctrl' :: ps' = (cmd :: ctrl :: ps).set i (byteAt (cmd :: ctrl :: ps) i + d)) :
    checksum cmd' ctrl' ps' = checksum cmd ctrl ps - d := by
  rw [checksum_eq_neg_foldl, checksum_eq_neg_foldl, h, foldl_add_set d _ _ i hi]
  exact neg_add' _ d

/-! ### The checksum and the integer sum of the addends -/

/-- The addends summed over the integers (R75). -/
def addendSum (cmd ctrl : Byte) (ps : List Byte) : Nat := cmd.toNat + ctrl.toNat + (ps.map BitVec.toNat).sum

/-- Law 1 of R75: wrapping each addition and wrapping once at the end agree. -/
theorem toNat_checksum (cmd ctrl : Byte) (ps : List Byte) :
    (checksum cmd ctrl ps).toNat = (256 - addendSum cmd ctrl ps % 256) % 256 := by
  have hsum : (ps.foldl (· + ·) (cmd + ctrl)).toNat = addendSum cmd ctrl ps % 256 := by
    rw [foldl_add_toNat, BitVec.toNat_add, addendSum, Nat.mod_add_mod]
  rw [checksum, BitVec.toNat_neg, hsum]

/-- Law 3 of R75. -/
theorem addendSum_add_checksum (cmd ctrl : Byte) (ps : List Byte) :
    (addendSum cmd ctrl ps + (checksum cmd ctrl ps).toNat) % 256 = 0 := by
  rw [toNat_checksum]; omega

/-- Law 5 of R75. -/
theorem checksum_eq_zero_iff : checksum cmd ctrl ps = 0#8 ↔ addendSum cmd ctrl ps % 256 = 0 := by
  rw [← BitVec.toNat_inj, toNat_checksum, BitVec.toNat_zero]; omega

end

/-- Settles O12: law 4 at the places 0, 1 and 2 + i of the list of addends, the other laws one by one. -/
theorem checksumLaws : Obligations.ChecksumLaws := by
  intro cmd ctrl ps
  refine ⟨toNat_checksum cmd ctrl ps, fun _ _ _ => checksum_perm, addendSum_add_checksum cmd ctrl ps,
    fun d => ⟨?_, ?_, fun i hi => ?_, ?_⟩, checksum_eq_zero_iff, rfl⟩
  · exact checksum_of_set_addend (i := 0) (by simp) rfl
  · exact checksum_of_set_addend (i := 1) (by simp) rfl
  · exact checksum_of_set_addend (i := i + 2) (by simpa using hi) rfl
  · exact fun hd => mt sub_eq_self.mp hd

/-! ### CHECKSUM -/

section

variable {s : State}

/-- CHECKSUM in IDLE with P at most 253 (R76). -/
theorem exec_checksum_of_le (hidle : s.phaseTx = .idle) (h : plen s ≤ 253) :
    exec .checksum s = .next
      { s with opErr := .accepted, txCsum := checksum s.txCmd s.txCtrl (txParams s), txStatus := .ok } :=
  (acceptTx_idle hidle checksumOp).trans (checksumOp_ok (s := s.setOpErr .accepted) h)

/-- CHECKSUM in IDLE with P above 253 (R76). -/
theorem exec_checksum_of_gt (hidle : s.phaseTx = .idle) (h : 253 < plen s) :
    exec .checksum s = .next { s with opErr := .accepted, txStatus := .paramsTooLong } :=
  (acceptTx_idle hidle checksumOp).trans (checksumOp_tooLong (s := s.setOpErr .accepted) h)

/-- ENCODE leaves its own operands as they were: TX_PARAM lies below TX_FRAME (20_memory.md R38). -/
theorem txParams_encoded (h : plen s ≤ 253) : txParams (encoded s) = txParams s :=
  readBytes_congr fun i (hi : i < plen s) => read_encoded_outside (.inl (by rw [Config.txParamBase]; omega))

/-- After a successful ENCODE of the same operands CHECKSUM changes nothing (R76, 40_frame_codec.md R70). -/
theorem exec_checksum_encoded (hidle : s.phaseTx = .idle) (h : plen s ≤ 253) :
    exec .checksum (encoded s) = .next (encoded s) := by
  rw [exec_checksum_of_le (s := encoded s) hidle h, txParams_encoded h]
  rfl

end

/-- Settles O22: rejected by `acceptTx_not_idle`, in IDLE by the size of the operands. -/
theorem checksumOperationWritesTxCsum : Obligations.ChecksumOperationWritesTxCsum := by
  refine ⟨by decide, fun s => ⟨fun h => acceptTx_not_idle h checksumOp, fun hidle hp => ?_, exec_checksum_of_gt⟩⟩
  refine ⟨exec_checksum_of_le hidle hp, fun t ht => ?_⟩
  obtain rfl := Host.Outcome.next.inj ((exec_encode_of_le hidle hp).symm.trans ht)
  exact exec_checksum_encoded hidle hp

end Sys2Proof.Machine

/-! TRANSMIT and the transmit engine (42_transport_framing.md R77 to R79): how a transmission starts, what leaves a
running one alone, and what an accepted byte does to it. -/

namespace Sys2Proof

/-! ### The word an operation is started by -/

theorem eq_opcodeOf_of_instrOfOpcode {n : Nat} {i : Instr} (h : instrOfOpcode n = some i) : n = (opcodeOf i).toNat := by
  unfold instrOfOpcode at h
  split at h <;> cases h <;> rfl

/-- No two words decode to the same operation (30_encoding.md R61 to R63). -/
theorem eq_encode_of_decode {v : Word} {i : Instr} (h : decode v = .ok i) : v = encode i := by
  have henc : (encode i).toNat = (opcodeOf i).toNat := by cases i <;> rfl
  unfold decode at h
  split at h
  · next hmbz =>
    split at h
    · next j hj =>
      cases h
      have hop := eq_opcodeOf_of_instrOfOpcode hj
      rw [toNat_opcodeField] at hop
      rw [mbzField_eq_zero_iff] at hmbz
      exact BitVec.eq_of_toNat_eq (by omega)
    · cases h
  · cases h

namespace Machine

section

variable {s t u : State} {o : List Byte}

/-! ### How a transmission starts -/

/-- TRANSMIT of a frame starts the engine (R77). -/
theorem exec_transmit_of_frame (hidle : s.phaseTx = .idle) (h : s.txFlen ≠ 0#9) :
    exec .transmit s = .next
      { s with opErr := .accepted, txSent := 0#9, phaseTx := .send, txStatus := .inProgress } :=
  (acceptTx_idle hidle transmitOp).trans (if_neg h)

theorem sending_exec_transmit (hidle : s.phaseTx = .idle) (hflen : s.txFlen ≠ 0#9) (h : exec .transmit s = .next t) :
    Sending s.out t ∧ txImage t = txImage s := by
  obtain rfl := Host.Outcome.next.inj ((exec_transmit_of_frame hidle hflen).symm.trans h)
  exact ⟨⟨rfl, (List.append_nil s.out).symm⟩, rfl⟩

/-- After ENCODE the image is the frame it built (R79, 40_frame_codec.md R70). -/
theorem txImage_encoded (h : plen s ≤ 253) : txImage (encoded s) = txFrameBytes s := by
  rw [txImage, toNat_txFlen_encoded h, ← length_txFrameBytes s]
  exact readBytes_eq _ _ _ fun i hi => txf_encoded (length_txFrameBytes s ▸ hi)

/-! ### What leaves a transmission alone -/

/-- `t` has the transmission of `s`: the same phase, the same progress and the same frame. -/
structure TxKept (s t : State) : Prop where
  phase : t.phaseTx = s.phaseTx
  sent : t.txSent = s.txSent
  flen : t.txFlen = s.txFlen
  out : t.out = s.out
  frame : ∀ i, i < 259 → txf t i = txf s i

theorem TxKept.trans (h : TxKept s t) (h' : TxKept t u) : TxKept s u where
  phase := h'.phase.trans h.phase
  sent := h'.sent.trans h.sent
  flen := h'.flen.trans h.flen
  out := h'.out.trans h.out
  frame i hi := (h'.frame i hi).trans (h.frame i hi)

theorem TxKept.image_eq (h : TxKept s t) (hflen : s.txFlen.toNat ≤ 259) : txImage t = txImage s := by
  rw [txImage, h.flen]
  exact readBytes_congr fun i hi => h.frame i (by omega)

theorem TxKept.sending (h : TxKept s t) (hflen : s.txFlen.toNat ≤ 259) (hs : Sending o s) : Sending o t := by
  obtain ⟨hphase, hout⟩ := hs
  exact ⟨h.phase.trans hphase, by rw [h.out, h.image_eq hflen, h.sent, hout]⟩

theorem txKept_setOpErr (s : State) (e : OpErr) : TxKept s (s.setOpErr e) := ⟨rfl, rfl, rfl, rfl, fun _ _ => rfl⟩

theorem txKept_publish (q : Except DecodeFailure Message) (s : State) : TxKept s (publish q s) :=
  ⟨publish_phaseTx s q, publish_txSent s q, publish_txFlen s q, publish_out s q, fun _ _ => by simp [txf]⟩

/-- No host write elsewhere than to OP reaches a transmission (43_control.md R86). -/
theorem txKept_memWrite {a : Addr} {v : Word} (ha : a ≠ 0x000#12) (h : memWrite a v s = .next t) : TxKept s t :=
  have hf := memWrite_frame ha h
  ⟨(congrArg State.phaseTx hf :), (congrArg State.txSent hf :), (congrArg State.txFlen hf :),
    (congrArg State.out hf :), fun _ => txf_memWrite ha h⟩

/-- RX_FRAME lies above TX_FRAME (20_memory.md R38). -/
theorem txKept_rxStored (b : Byte) (s : State) : TxKept s (rxStored b s) :=
  ⟨rfl, rfl, rfl, rfl, fun i hi =>
    read_write_other s.mem b (by simp only [Config.txFrameBase, Config.rxFrameBase]; omega)⟩

theorem txKept_rxFinish (s : State) : TxKept s (rxFinish s) := by
  rcases rxFinish_cases s with ⟨-, e⟩ | ⟨-, e⟩ <;> rw [e]
  · exact ⟨rfl, rfl, rfl, rfl, fun _ _ => rfl⟩
  · have hstop : TxKept s { s with rxNbytes := s.rxCount, phaseRx := .idle } := ⟨rfl, rfl, rfl, rfl, fun _ _ => rfl⟩
    exact hstop.trans (txKept_publish _ _)

/-- No step of the receive engine reaches a transmission (20_memory.md R53). -/
theorem txKept_rxStep (h : rxStep s = .next t) : TxKept s t := by
  rcases rxStep_cases h with ⟨-, rfl⟩ | ⟨b, es, -, -, -, -, rfl⟩ | ⟨e, es, -, -, -, -, rfl⟩
  · exact ⟨rfl, rfl, rfl, rfl, fun _ _ => rfl⟩
  · have htake : TxKept s { s with rxIn := es } := ⟨rfl, rfl, rfl, rfl, fun _ _ => rfl⟩
    exact (htake.trans (txKept_rxStored b _)).trans (txKept_rxFinish _)
  · exact ⟨rfl, rfl, rfl, rfl, fun _ _ => rfl⟩

theorem txKept_offerEvent (e : RxEvent) (s : State) : TxKept s (offerEvent e s) := by
  rcases offerEvent_cases e s with h | ⟨-, -, h⟩ <;> rw [h] <;> exact ⟨rfl, rfl, rfl, rfl, fun _ _ => rfl⟩

/-- The operations of the receive engine do not reach a transmission (20_memory.md R53). -/
theorem txKept_acceptRx {op : State → Result} (hop : ∀ {s t : State}, op s = .next t → TxKept s t)
    (h : acceptRx s op = .next t) : TxKept s t := by
  rcases acceptRx_cases h with ⟨-, h⟩ | ⟨-, e, rfl⟩
  · exact (txKept_setOpErr s _).trans (hop h)
  · exact txKept_setOpErr s e

theorem txKept_receiveOp (h : receiveOp s = .next t) : TxKept s t := by
  obtain rfl := Host.Outcome.next.inj h
  exact ⟨rfl, rfl, rfl, rfl, fun _ _ => rfl⟩

theorem txKept_decodeOp (h : decodeOp s = .next t) : TxKept s t := by
  obtain ⟨-, rfl⟩ := decodeOp_next h
  exact txKept_publish _ s

theorem txKept_acceptTx_of_send (hsend : s.phaseTx = .send) {op : State → Result} (h : acceptTx s op = .next t) :
    TxKept s t := by
  obtain rfl := Host.Outcome.next.inj ((acceptTx_send hsend op).symm.trans h)
  exact txKept_setOpErr s _

/-- Of the operations only RESET reaches a running transmission (43_control.md R87, 10_state.md R33). -/
theorem exec_of_send {i : Instr} (hsend : s.phaseTx = .send) (h : exec i s = .next t) :
    TxKept s t ∨ (i = .reset ∧ t = (resetRegisters s).setOpErr .accepted) := by
  cases i with
  | nop => exact .inl (Host.Outcome.next.inj h ▸ txKept_setOpErr s _)
  | encode => exact .inl (txKept_acceptTx_of_send hsend h)
  | transmit => exact .inl (txKept_acceptTx_of_send hsend h)
  | checksum => exact .inl (txKept_acceptTx_of_send hsend h)
  | receive => exact .inl (txKept_acceptRx txKept_receiveOp h)
  | decode => exact .inl (txKept_acceptRx txKept_decodeOp h)
  | reset => exact .inr ⟨rfl, (Host.Outcome.next.inj h).symm⟩

/-- All that can happen to a running transmission: nothing, RESET, or the answer to the offered byte. -/
theorem perform_of_send {x : Action} (hsend : s.phaseTx = .send) (h : perform x s = .next t) :
    TxKept s t ∨
    (x = .hostWrite 0x000#12 0x000F#16 ∧ t = (resetRegisters s).setOpErr .accepted) ∨
    (∃ as, t = txAccepted (txf s s.txSent.toNat) { s with txAnswers := as }) ∨
    (∃ as, t = txErrored { s with txAnswers := as }) := by
  cases x with
  | hostRead a => exact .inl (Host.Outcome.next.inj h ▸ ⟨rfl, rfl, rfl, rfl, fun _ _ => rfl⟩)
  | hostWrite a v =>
    by_cases ha : a = 0x000#12
    · subst ha
      rcases dispatchWord_cases h with rfl | ⟨i, hi, h⟩
      · exact .inl (txKept_setOpErr s _)
      · rcases exec_of_send hsend h with hk | ⟨rfl, ht⟩
        · exact .inl hk
        · exact .inr (.inl ⟨eq_encode_of_decode hi ▸ rfl, ht⟩)
    · exact .inl (txKept_memWrite ha h)
  | txStep =>
    rcases txStep_cases h with ⟨-, rfl⟩ | ⟨r, as, -, -, -, ⟨-, ht⟩ | ⟨-, ht⟩⟩
    · exact .inl ⟨rfl, rfl, rfl, rfl, fun _ _ => rfl⟩
    · exact .inr (.inr (.inl ⟨as, ht⟩))
    · exact .inr (.inr (.inr ⟨as, ht⟩))
  | rxStep => exact .inl (txKept_rxStep h)
  | offer e => exact .inl (Host.Outcome.next.inj h ▸ txKept_offerEvent e s)
  | answer r => exact .inl (Host.Outcome.next.inj h ▸ ⟨rfl, rfl, rfl, rfl, fun _ _ => rfl⟩)

/-! ### What an accepted byte does -/

theorem length_txImage (s : State) : (txImage s).length = s.txFlen.toNat := length_readBytes _ _ _

/-- The offered byte is the next byte of the image (R78). -/
theorem take_txImage_succ {n : Nat} (h : n < s.txFlen.toNat) :
    (txImage s).take (n + 1) = (txImage s).take n ++ [txf s n] := by
  have hn : n < (txImage s).length := by rwa [length_txImage]
  have hbyte : (txImage s)[n] = txf s n := by simp [txImage, Memory.readBytes, txf]
  rw [List.take_succ_eq_append_getElem hn, hbyte]

/-- An accepted byte extends what has been sent by one place of the image. -/
theorem out_append_txf (hs : Sending o s) (hlt : s.txSent.toNat < s.txFlen.toNat) (hflen : s.txFlen.toNat ≤ 259) :
    s.out ++ [txf s s.txSent.toNat] = o ++ (txImage s).take (s.txSent + 1#9).toNat := by
  obtain ⟨-, hout⟩ := hs
  rw [hout, count_succ (by omega), take_txImage_succ hlt, List.append_assoc]

theorem txAccepted_of_ne {b : Byte} (h : s.txSent + 1#9 ≠ s.txFlen) :
    txAccepted b s = { s with out := s.out ++ [b], txSent := s.txSent + 1#9 } := if_neg h

theorem txAccepted_of_eq {b : Byte} (h : s.txSent + 1#9 = s.txFlen) :
    txAccepted b s = { s with out := s.out ++ [b], txSent := s.txSent + 1#9, phaseTx := .idle, txStatus := .ok } :=
  if_pos h

/-- An accepted byte that is not the last: the transmission goes on, one byte further. -/
theorem sending_txAccepted (hs : Sending o s) (hlt : s.txSent.toNat < s.txFlen.toNat) (hflen : s.txFlen.toNat ≤ 259)
    (hmore : s.txSent + 1#9 ≠ s.txFlen) :
    Sending o (txAccepted (txf s s.txSent.toNat) s) ∧ txImage (txAccepted (txf s s.txSent.toNat) s) = txImage s := by
  rw [txAccepted_of_ne hmore]
  exact ⟨⟨hs.1, out_append_txf hs hlt hflen⟩, rfl⟩

/-- The last byte accepted: the transmission ends OK, all of the image appended. -/
theorem ended_txAccepted (hs : Sending o s) (hlt : s.txSent.toNat < s.txFlen.toNat) (hflen : s.txFlen.toNat ≤ 259)
    (hlast : s.txSent + 1#9 = s.txFlen) :
    let t := txAccepted (txf s s.txSent.toNat) s
    t.phaseTx = .idle ∧ t.txStatus = .ok ∧ t.out = o ++ txImage s ∧ t.txSent = s.txFlen ∧
      t.txAnswers = s.txAnswers := by
  rw [txAccepted_of_eq hlast]
  have hout := out_append_txf hs hlt hflen
  rw [hlast, ← length_txImage, List.take_length] at hout
  exact ⟨rfl, rfl, hout, hlast, rfl⟩

/-- What one step of any agent makes of a running transmission (R79). -/
theorem step_of_sending (hl : LegalTx s) (hs : Sending o s) (h : step s = .next t) :
    (Sending o t ∧ txImage t = txImage s) ∨
    (t.phaseTx = .idle ∧ t.txStatus = .ok ∧ t.out = o ++ txImage s) ∨
    (t.phaseTx = .failed ∧ t.txStatus = .transportFailure ∧
      t.txSent.toNat < (txImage s).length ∧ t.out = o ++ (txImage s).take t.txSent.toNat) ∨
    ((∃ rest, s.agenda = .hostWrite 0x000#12 0x000F#16 :: rest) ∧ t.phaseTx = .idle ∧ t.txStatus = .none ∧
      t.out = s.out) := by
  have ⟨hsend, hout⟩ := hs
  have hlt : s.txSent.toNat < s.txFlen.toNat := hl.running (by rw [hsend]; decide)
  have hflen : s.txFlen.toNat ≤ 259 := by have := hl.flen; omega
  rcases step_cases h with ⟨-, rfl⟩ | ⟨x, rest, hagenda, hx⟩
  · exact .inl ⟨hs, rfl⟩
  · rcases perform_of_send (s := { s with agenda := rest }) hsend hx with hk | ⟨rfl, rfl⟩ | ⟨as, rfl⟩ | ⟨as, rfl⟩
    · exact .inl ⟨TxKept.sending hk hflen hs, hk.image_eq hflen⟩
    · exact .inr (.inr (.inr ⟨⟨rest, hagenda⟩, rfl, rfl, rfl⟩))
    · have hs' : Sending o { s with agenda := rest, txAnswers := as } := hs
      by_cases hlast : s.txSent + 1#9 = s.txFlen
      · obtain ⟨hidle, hok, hall, -⟩ := ended_txAccepted hs' hlt hflen hlast
        exact .inr (.inl ⟨hidle, hok, hall⟩)
      · exact .inl (sending_txAccepted hs' hlt hflen hlast)
    · exact .inr (.inr (.inl ⟨rfl, rfl, (length_txImage s).symm ▸ hlt, hout⟩))

end

/-- Settles O24: rejected by `acceptTx_not_idle`, otherwise by whether there is a frame; the host reaches neither the
engine nor TX_FRAME. -/
theorem transmitStartsTheEngine : Obligations.TransmitStartsTheEngine :=
  ⟨by decide, fun _ => ⟨fun h => acceptTx_not_idle h transmitOp, exec_transmit_of_no_frame, exec_transmit_of_frame,
    fun _ _ _ hsend hl ha h =>
      have hk := txKept_memWrite ha h
      have hflen := hl.tx.flen
      ⟨hk.phase.trans hsend, hk.image_eq (by omega)⟩⟩⟩

/-- Settles O33: the start by `exec_transmit_of_no_frame` and `sending_exec_transmit`, each step by
`step_of_sending`, the image by `txImage_encoded`. -/
theorem transmitEmitsTheImageInOrder : Obligations.TransmitEmitsTheImageInOrder := by
  refine ⟨fun s t hidle h => ⟨fun hflen => ?_, fun hflen => sending_exec_transmit hidle hflen h⟩,
    fun _ _ _ hl hs h => step_of_sending hl.tx hs h, fun s t hidle hp h => ?_⟩
  · obtain rfl := Host.Outcome.next.inj ((exec_transmit_of_no_frame hidle hflen).symm.trans h)
    exact ⟨hidle, rfl, rfl⟩
  · obtain rfl := Host.Outcome.next.inj ((exec_encode_of_le hidle hp).symm.trans h)
    exact txImage_encoded hp

end Machine

end Sys2Proof

/-! RECEIVE and the receive engine (42_transport_framing.md R80 to R83): how a reception starts, what leaves a running
one alone, and what a byte or the end of the channel does to it. -/

namespace Sys2Proof.Machine

section

variable {s t : State} {bs : List Byte} {b : Byte} {es : List RxEvent}

/-! ### How a reception starts -/

/-- The state RECEIVE answers in IDLE (R80). -/
def receiveStarted (s : State) : State :=
  { clearMessage s with
    opErr := .accepted, rxCount := 0#9, rxNeed := 3#9, phaseRx := .recv, rxStatus := .inProgress }

theorem exec_receive_of_idle (hidle : s.phaseRx = .idle) : exec .receive s = .next (receiveStarted s) :=
  acceptRx_idle hidle receiveOp

theorem receiving_receiveStarted (s : State) : Receiving [] (receiveStarted s) := ⟨rfl, rfl, rfl⟩

/-! ### What leaves a reception alone -/

/-- `t` has the reception of `s`: the same phase, the same bytes taken, and of the input channel all events, with at
most one more behind them. -/
structure RxKept (s t : State) : Prop where
  phase : t.phaseRx = s.phaseRx
  count : t.rxCount = s.rxCount
  frame : ∀ i, rxf t i = rxf s i
  channel : t.rxIn = s.rxIn ∨ ∃ e, t.rxIn = s.rxIn ++ [e]

theorem RxKept.receiving (h : RxKept s t) (hr : Receiving bs s) : Receiving bs t := by
  obtain ⟨hphase, hcount, hbuf⟩ := hr
  exact ⟨h.phase.trans hphase, by rw [h.count, hcount], (readBytes_congr fun i _ => h.frame i).trans hbuf⟩

theorem rxKept_setOpErr (s : State) (e : OpErr) : RxKept s (s.setOpErr e) := ⟨rfl, rfl, fun _ => rfl, .inl rfl⟩

/-- While the receive engine is busy no host write elsewhere than to OP reaches a reception (43_control.md R86). -/
theorem rxKept_memWrite {a : Addr} {v : Word} (hrecv : s.phaseRx = .recv) (ha : a ≠ 0x000#12)
    (h : memWrite a v s = .next t) : RxKept s t := by
  have hbusy : s.phaseRx ≠ .idle := by rw [hrecv]; decide
  rcases memWrite_cases ha h with
    rfl | ⟨-, rfl⟩ | ⟨-, rfl⟩ | ⟨-, rfl⟩ | ⟨-, hidle, -⟩ | ⟨i, hi, hlt, rfl⟩ | ⟨_, -, -, hidle, -⟩
  iterate 4 exact ⟨rfl, rfl, fun _ => rfl, .inl rfl⟩
  · exact absurd hidle hbusy
  · exact ⟨rfl, rfl, fun _ => read_write_other _ _ (by rw [Config.rxFrameBase]; omega), .inl rfl⟩
  · exact absurd hidle hbusy

/-- No step of the transmit engine reaches a reception (20_memory.md R53). -/
theorem rxKept_txStep (h : txStep s = .next t) : RxKept s t := by
  rcases txStep_cases h with ⟨-, rfl⟩ | ⟨r, as, -, -, -, ⟨-, rfl⟩ | ⟨-, rfl⟩⟩
  · exact ⟨rfl, rfl, fun _ => rfl, .inl rfl⟩
  · rcases txAccepted_cases (txf s s.txSent.toNat) { s with txAnswers := as } with ⟨-, e⟩ | ⟨-, e⟩ <;> rw [e] <;>
      exact ⟨rfl, rfl, fun _ => rfl, .inl rfl⟩
  · exact ⟨rfl, rfl, fun _ => rfl, .inl rfl⟩

theorem rxKept_offerEvent (e : RxEvent) (s : State) : RxKept s (offerEvent e s) := by
  rcases offerEvent_cases e s with h | ⟨-, -, h⟩ <;> rw [h]
  · exact ⟨rfl, rfl, fun _ => rfl, .inl rfl⟩
  · exact ⟨rfl, rfl, fun _ => rfl, .inr ⟨e, rfl⟩⟩

/-- ENCODE writes TX_FRAME, which lies below RX_FRAME (20_memory.md R38). -/
theorem rxKept_execEncode (h : exec .encode s = .next t) : RxKept s t := by
  rcases acceptTx_cases h with ⟨hidle, -⟩ | ⟨-, e, rfl⟩
  · by_cases hp : plen s ≤ 253
    · obtain rfl := Host.Outcome.next.inj ((exec_encode_of_le hidle hp).symm.trans h)
      exact ⟨rfl, rfl, fun i => read_encoded_outside (by rw [Config.rxFrameBase]; omega), .inl rfl⟩
    · obtain rfl := Host.Outcome.next.inj ((exec_encode_of_gt hidle (by omega)).symm.trans h)
      exact ⟨rfl, rfl, fun _ => rfl, .inl rfl⟩
  · exact rxKept_setOpErr s e

theorem rxKept_execTransmit (h : exec .transmit s = .next t) : RxKept s t := by
  rcases acceptTx_cases h with ⟨hidle, -⟩ | ⟨-, e, rfl⟩
  · by_cases hflen : s.txFlen = 0#9
    · obtain rfl := Host.Outcome.next.inj ((exec_transmit_of_no_frame hidle hflen).symm.trans h)
      exact ⟨rfl, rfl, fun _ => rfl, .inl rfl⟩
    · obtain rfl := Host.Outcome.next.inj ((exec_transmit_of_frame hidle hflen).symm.trans h)
      exact ⟨rfl, rfl, fun _ => rfl, .inl rfl⟩
  · exact rxKept_setOpErr s e

theorem rxKept_execChecksum (h : exec .checksum s = .next t) : RxKept s t := by
  rcases acceptTx_cases h with ⟨hidle, -⟩ | ⟨-, e, rfl⟩
  · by_cases hp : plen s ≤ 253
    · obtain rfl := Host.Outcome.next.inj ((exec_checksum_of_le hidle hp).symm.trans h)
      exact ⟨rfl, rfl, fun _ => rfl, .inl rfl⟩
    · obtain rfl := Host.Outcome.next.inj ((exec_checksum_of_gt hidle (by omega)).symm.trans h)
      exact ⟨rfl, rfl, fun _ => rfl, .inl rfl⟩
  · exact rxKept_setOpErr s e

theorem rxKept_acceptRx_of_recv (hrecv : s.phaseRx = .recv) {op : State → Result} (h : acceptRx s op = .next t) :
    RxKept s t := by
  obtain rfl := Host.Outcome.next.inj ((acceptRx_recv hrecv op).symm.trans h)
  exact rxKept_setOpErr s _

/-- Of the operations only RESET reaches a running reception (43_control.md R87, 10_state.md R34). -/
theorem exec_of_recv {i : Instr} (hrecv : s.phaseRx = .recv) (h : exec i s = .next t) :
    RxKept s t ∨ (i = .reset ∧ t = (resetRegisters s).setOpErr .accepted) := by
  cases i with
  | nop => exact .inl (Host.Outcome.next.inj h ▸ rxKept_setOpErr s _)
  | encode => exact .inl (rxKept_execEncode h)
  | transmit => exact .inl (rxKept_execTransmit h)
  | checksum => exact .inl (rxKept_execChecksum h)
  | receive => exact .inl (rxKept_acceptRx_of_recv hrecv h)
  | decode => exact .inl (rxKept_acceptRx_of_recv hrecv h)
  | reset => exact .inr ⟨rfl, (Host.Outcome.next.inj h).symm⟩

/-- All that can happen to a running reception: nothing but an event more in the channel, RESET, a byte taken, or the
end of the channel. -/
theorem perform_of_recv {x : Action} (hrecv : s.phaseRx = .recv) (h : perform x s = .next t) :
    RxKept s t ∨
    (x = .hostWrite 0x000#12 0x000F#16 ∧ t = (resetRegisters s).setOpErr .accepted) ∨
    (∃ b es, s.rxIn = .byte b :: es ∧ s.rxCount.toNat ≤ 258 ∧ t = rxFinish (rxStored b { s with rxIn := es })) ∨
    (∃ e es, s.rxIn = e :: es ∧ e.ending = true ∧ t.phaseRx = .failed ∧ t.rxStatus = .transportFailure ∧
      t.rxNbytes = s.rxCount) := by
  cases x with
  | hostRead a => exact .inl (Host.Outcome.next.inj h ▸ ⟨rfl, rfl, fun _ => rfl, .inl rfl⟩)
  | hostWrite a v =>
    by_cases ha : a = 0x000#12
    · subst ha
      rcases dispatchWord_cases h with rfl | ⟨i, hi, h⟩
      · exact .inl (rxKept_setOpErr s _)
      · rcases exec_of_recv hrecv h with hk | ⟨rfl, ht⟩
        · exact .inl hk
        · exact .inr (.inl ⟨eq_encode_of_decode hi ▸ rfl, ht⟩)
    · exact .inl (rxKept_memWrite hrecv ha h)
  | txStep => exact .inl (rxKept_txStep h)
  | rxStep =>
    rcases rxStep_cases h with ⟨-, rfl⟩ | ⟨b, es, -, -, hin, hroom, ht⟩ | ⟨e, es, -, -, hin, hend, rfl⟩
    · exact .inl ⟨rfl, rfl, fun _ => rfl, .inl rfl⟩
    · exact .inr (.inr (.inl ⟨b, es, hin, hroom, ht⟩))
    · exact .inr (.inr (.inr ⟨e, es, hin, hend, rfl, rfl, rfl⟩))
  | offer e => exact .inl (Host.Outcome.next.inj h ▸ rxKept_offerEvent e s)
  | answer r => exact .inl (Host.Outcome.next.inj h ▸ ⟨rfl, rfl, fun _ => rfl, .inl rfl⟩)

/-! ### What a byte taken does -/

/-- How many bytes a frame has, as far as the bytes `bs` taken of it say (R81). -/
def bytesNeeded (bs : List Byte) : Nat := if bs.length < 3 then 3 else (byteAt bs 2).toNat + 4

theorem bytesNeeded_of_ge (h : 3 ≤ bs.length) : bytesNeeded bs = (byteAt bs 2).toNat + 4 := if_neg (by omega)

/-- A frame is complete exactly when all the bytes its length byte asks for have been taken. -/
theorem length_eq_bytesNeeded_iff : bs.length = bytesNeeded bs ↔ bs.length = (byteAt bs 2).toNat + 4 := by
  unfold bytesNeeded; split <;> omega

theorem byteAt_append_left {i : Nat} (h : i < bs.length) (cs : List Byte) : byteAt (bs ++ cs) i = byteAt bs i :=
  List.getD_append _ _ _ _ h

/-- The engine's `rx_need` is what the bytes taken say, in a legal state (10_state.md R34). -/
theorem rxNeed_of_legal (hl : LegalRx s) (hr : Receiving bs s) : s.rxNeed.toNat = bytesNeeded bs := by
  obtain ⟨hrecv, hcount, hbuf⟩ := hr
  obtain ⟨hfew, -⟩ := hl.need
  obtain ⟨-, hlength⟩ := hl.running (by rw [hrecv]; decide)
  rw [hcount] at hfew hlength
  by_cases h : bs.length < 3
  · rw [bytesNeeded, if_pos h, hfew h]; rfl
  · have hbyte : byteAt bs 2 = rxf s 2 := by
      conv_lhs => rw [← hbuf]
      exact byteAt_readBytes _ _ (by omega)
    rw [bytesNeeded_of_ge (by omega), hlength (by omega), hbyte]

/-- Storing a byte keeps `rx_need` what the bytes taken say (R81). -/
theorem rxNeed_rxStored (hr : Receiving bs s) (hneed : s.rxNeed.toNat = bytesNeeded bs) (hroom : bs.length ≤ 258)
    (b : Byte) : (rxStored b s).rxNeed.toNat = bytesNeeded (bs ++ [b]) := by
  obtain ⟨-, hcount, -⟩ := hr
  rw [rxStored_rxNeed]
  rcases needAfter_cases (c := s.rxCount) (by omega) b s.rxNeed with ⟨htwo, h⟩ | ⟨htwo, h⟩
  · have hbyte : byteAt (bs ++ [b]) 2 = b := by
      simp [byteAt, show bs.length = 2 by omega]
    rw [h, bytesNeeded_of_ge (by simp; omega), hbyte]
  · rw [h, hneed]
    by_cases hlt : bs.length < 3
    · rw [bytesNeeded, if_pos hlt, bytesNeeded, if_pos (by simp; omega)]
    · rw [bytesNeeded_of_ge (by omega), bytesNeeded_of_ge (by simp; omega), byteAt_append_left (by omega)]

/-- The byte taken joins the bytes taken (R81). -/
theorem receiving_rxStored (hr : Receiving bs s) (hroom : bs.length ≤ 258) (b : Byte) :
    Receiving (bs ++ [b]) (rxStored b s) := by
  obtain ⟨hrecv, hcount, hbuf⟩ := hr
  refine ⟨hrecv, ?_, ?_⟩
  · rw [rxStored_rxCount, count_succ (by omega), hcount, List.length_append, List.length_singleton]
  · have hold : rxBuffer (rxStored b s) bs.length = bs :=
      (readBytes_congr fun i hi => read_write_other s.mem b (by omega)).trans hbuf
    have hnew : rxf (rxStored b s) bs.length = b := by
      rw [← hcount]; exact read_write_self _ _ _
    rw [List.length_append, List.length_singleton]
    exact (readBytes_succ _ _ _).trans (congrArg₂ (fun xs x => xs ++ [x]) hold hnew)

theorem rxFinish_of_ne (h : s.rxCount ≠ s.rxNeed) : rxFinish s = s := if_neg h

theorem rxFinish_of_eq (h : s.rxCount = s.rxNeed) :
    rxFinish s =
      publish (decodeFrame (rxBuffer s s.rxCount.toNat)) { s with rxNbytes := s.rxCount, phaseRx := .idle } := if_pos h

/-- A reception has ended with the bytes `bs`: they are stored, counted, and published as they decode (R81). -/
structure Received (bs : List Byte) (t : State) : Prop where
  phase : t.phaseRx = .idle
  count : t.rxCount.toNat = bs.length
  nbytes : t.rxNbytes.toNat = bs.length
  buffer : rxBuffer t bs.length = bs
  published : Published (decodeFrame bs) t

/-- The engine publishes once the frame is complete (R81). -/
theorem received_rxFinish (hr : Receiving bs s) (hneed : s.rxNeed.toNat = bytesNeeded bs)
    (hfull : bs.length = (byteAt bs 2).toNat + 4) : Received bs (rxFinish s) := by
  obtain ⟨-, hcount, hbuf⟩ := hr
  have hall : s.rxCount = s.rxNeed := BitVec.eq_of_toNat_eq (by rw [hcount, hneed, length_eq_bytesNeeded_iff.mpr hfull])
  rw [rxFinish_of_eq hall, hcount, hbuf]
  exact ⟨by simp, by simp [hcount], by simp [hcount], by simpa [rxBuffer] using hbuf, published_publish _ _⟩

/-- Until then it waits for the next byte (R81). -/
theorem rxFinish_of_incomplete (hr : Receiving bs s) (hneed : s.rxNeed.toNat = bytesNeeded bs)
    (hpart : bs.length ≠ (byteAt bs 2).toNat + 4) : rxFinish s = s := by
  obtain ⟨-, hcount, -⟩ := hr
  exact rxFinish_of_ne fun h => hpart (length_eq_bytesNeeded_iff.mp (by rw [← hcount, h, hneed]))

theorem rxFinish_rxIn (s : State) : (rxFinish s).rxIn = s.rxIn := by
  rcases rxFinish_cases s with ⟨-, e⟩ | ⟨-, e⟩ <;> rw [e]
  exact publish_rxIn _ _

theorem rxFinish_mem (s : State) : (rxFinish s).mem = s.mem := by
  rcases rxFinish_cases s with ⟨-, e⟩ | ⟨-, e⟩ <;> rw [e]
  exact publish_mem _ _

/-- What one step of any agent makes of a running reception (R83). -/
theorem step_of_receiving (hl : LegalRx s) (hr : Receiving bs s) (h : step s = .next t) :
    (Receiving bs t ∧ (t.rxIn = s.rxIn ∨ ∃ e, t.rxIn = s.rxIn ++ [e])) ∨
    (∃ b es, s.rxIn = .byte b :: es ∧ t.rxIn = es ∧ Receiving (bs ++ [b]) t) ∨
    (∃ b es, s.rxIn = .byte b :: es ∧ t.rxIn = es ∧
      (bs ++ [b]).length = (byteAt (bs ++ [b]) 2).toNat + 4 ∧ Received (bs ++ [b]) t) ∨
    (∃ e es, s.rxIn = e :: es ∧ e.ending = true ∧ t.phaseRx = .failed ∧ t.rxStatus = .transportFailure ∧
      t.rxNbytes.toNat = bs.length) ∨
    ((∃ rest, s.agenda = .hostWrite 0x000#12 0x000F#16 :: rest) ∧ t.phaseRx = .idle ∧ t.rxStatus = .none ∧
      t.rxIn = s.rxIn) := by
  have ⟨hrecv, hcount, _⟩ := hr
  rcases step_cases h with ⟨-, rfl⟩ | ⟨x, rest, hagenda, hx⟩
  · exact .inl ⟨hr, .inl rfl⟩
  · rcases perform_of_recv (s := { s with agenda := rest }) hrecv hx with
      hk | ⟨rfl, rfl⟩ | ⟨b, es, hin, hroom, rfl⟩ | ⟨e, es, hin, hend, hfailed, hstatus, hn⟩
    · exact .inl ⟨RxKept.receiving hk hr, hk.channel⟩
    · exact .inr (.inr (.inr (.inr ⟨⟨rest, hagenda⟩, rfl, rfl, rfl⟩)))
    · have hr₀ : Receiving bs { s with agenda := rest, rxIn := es } := hr
      have hroom : bs.length ≤ 258 := hcount ▸ hroom
      have hr' := receiving_rxStored hr₀ hroom b
      have hneed := rxNeed_of_legal hl hr
      have hneed' := rxNeed_rxStored hr₀ hneed hroom b
      have hrest := rxFinish_rxIn (rxStored b { s with agenda := rest, rxIn := es })
      by_cases hfull : (bs ++ [b]).length = (byteAt (bs ++ [b]) 2).toNat + 4
      · exact .inr (.inr (.inl ⟨b, es, hin, hrest, hfull, received_rxFinish hr' hneed' hfull⟩))
      · exact .inr (.inl ⟨b, es, hin, hrest, (rxFinish_of_incomplete hr' hneed' hfull).symm ▸ hr'⟩)
    · exact .inr (.inr (.inr (.inl ⟨e, es, hin, hend, hfailed, hstatus, hn ▸ hcount⟩)))

/-! ### The step of the engine on a byte -/

/-- Publishing writes the registers that `withMessageOf` puts back, and no others (40_frame_codec.md R69). -/
theorem withMessageOf_publish (q : Except DecodeFailure Message) (m : Memory) (s t : State) :
    withMessageOf s { publish q t with mem := m } = withMessageOf s { t with mem := m } := by
  unfold publish; split <;> rfl

/-- A waiting byte is stored, counted and, if it is the last, decoded (R81). -/
theorem step_rxStep_byte {rest : List Action} (hagenda : s.agenda = .rxStep :: rest) (hrecv : s.phaseRx = .recv)
    (hopen : s.rxInEnded = false) (hin : s.rxIn = .byte b :: es) (hroom : s.rxCount.toNat ≤ 258) :
    step s = .next (rxFinish (rxStored b { s with agenda := rest, rxIn := es })) := by
  have htake : ¬Config.maxFrame ≤ s.rxCount.toNat := by rw [Config.maxFrame]; omega
  calc step s = rxStep { s with agenda := rest } := step_of_agenda_cons hagenda
    _ = rxTakeByte b { s with agenda := rest, rxIn := es } := by simp only [rxStep, hrecv, hopen, hin, rxTake]
    _ = _ := if_neg htake

end

/-- Settles O25: rejected by `acceptRx_not_idle`, in IDLE the state `receiveStarted`. -/
theorem receiveStartsTheEngine : Obligations.ReceiveStartsTheEngine :=
  ⟨by decide, fun _ => ⟨fun h => acceptRx_not_idle h receiveOp, exec_receive_of_idle⟩⟩

/-- Settles O28: `step_rxStep_byte` says the next state, and whether it publishes is whether the frame is complete. -/
theorem receiveEngineByteStep : Obligations.ReceiveEngineByteStep := by
  intro s rest b es hagenda hrecv hopen hin hroom
  let u := rxStored b { s with agenda := rest, rxIn := es }
  have hmem : (rxFinish u).mem = Memory.write s.mem (Config.rxFrameBase + s.rxCount.toNat) b := rxFinish_mem u
  refine ⟨rxFinish u, step_rxStep_byte hagenda hrecv hopen hin hroom, ?_, fun a ha => ?_, fun hmore => ?_,
    fun hlast => ?_⟩
  · rw [rxf, hmem, read_write_self]
  · rw [hmem, read_write_other _ _ ha]
  · rw [rxFinish_of_ne (s := u) hmore]
    rfl
  · have hpublish := rxFinish_of_eq (s := u) hlast
    have hbuf : rxBuffer u u.rxCount.toNat = (List.range u.rxCount.toNat).map (rxf (rxFinish u)) := by
      rw [rxBuffer, ← rxFinish_mem u]; rfl
    constructor
    · rw [hpublish]
      exact withMessageOf_publish _ _ _ _
    · have hpub := published_publish (decodeFrame (rxBuffer u u.rxCount.toNat))
        { u with rxNbytes := u.rxCount, phaseRx := .idle }
      rwa [← hpublish, hbuf] at hpub

/-- Settles O35: the start by `receiving_receiveStarted`, each step by `step_of_receiving`. -/
theorem receiveTakesExactlyOneFrame : Obligations.ReceiveTakesExactlyOneFrame := by
  refine ⟨fun s t hidle h => ?_, fun bs s t hl hr h => ?_⟩
  · obtain rfl := Host.Outcome.next.inj ((exec_receive_of_idle hidle).symm.trans h)
    exact ⟨receiving_receiveStarted s, rfl⟩
  · rcases step_of_receiving hl.rx hr h with hgoes | hbyte | ⟨b, es, hin, hrest, hfull, hend⟩ | hfailed | hreset
    · exact .inl hgoes
    · exact .inr (.inl hbyte)
    · exact .inr (.inr (.inl ⟨b, es, hin, hrest, hend.phase, hfull, hend.nbytes, hend.published⟩))
    · exact .inr (.inr (.inr (.inl hfailed)))
    · exact .inr (.inr (.inr (.inr hreset)))

end Sys2Proof.Machine

/-! A frame from one FCODEC to another (42_transport_framing.md R84): a transmission whose every byte is accepted, run to
its end; a reception whose bytes are all there, run to its end; and the one after the other. -/

namespace Sys2Proof.Machine

section

variable {s t : State} {bs : List Byte} {es : List RxEvent} {o : List Byte} {as : List TxAnswer}

theorem run_succ_of_step (k : Nat) (h : step s = .next t) :
    Host.Core.run core (k + 1) s = Host.Core.run core k t := by
  have h' : core.step s = .next t := h
  simp only [Host.Core.run, h']

/-! ### A transmission run to its end -/

/-- An offered byte whose answer is `Accept` (R78). -/
theorem step_txStep_accept {rest : List Action} (hagenda : s.agenda = .txStep :: rest) (hsend : s.phaseTx = .send)
    (hanswer : s.txAnswers = .accept :: as) (hroom : s.txSent.toNat ≤ 258) :
    step s = .next (txAccepted (txf s s.txSent.toNat) { s with agenda := rest, txAnswers := as }) := by
  have htake : ¬Config.maxFrame ≤ s.txSent.toNat := by rw [Config.maxFrame]; omega
  calc step s = txStep { s with agenda := rest } := step_of_agenda_cons hagenda
    _ = txTake .accept { s with agenda := rest, txAnswers := as } := by simp only [txStep, hsend, hanswer]
    _ = _ := if_neg htake

/-- As many accepted bytes as are left to send end the transmission OK (R79). -/
theorem run_txSteps (k : Nat) : ∀ {s : State}, Sending o s → s.agenda = List.replicate (k + 1) .txStep →
    s.txAnswers = List.replicate (k + 1) .accept ++ as → s.txSent.toNat + (k + 1) = s.txFlen.toNat →
    s.txFlen.toNat ≤ 259 →
    ∃ u, Host.Core.run core (k + 1) s = .next u ∧ u.out = o ++ txImage s ∧ u.phaseTx = .idle ∧ u.txStatus = .ok ∧
      u.txSent = s.txFlen ∧ u.txAnswers = as := by
  induction k with
  | zero =>
    intro s hs hagenda hanswers hleft hflen
    have hs' : Sending o { s with agenda := [], txAnswers := as } := hs
    have hlast : s.txSent + 1#9 = s.txFlen := BitVec.eq_of_toNat_eq (by rw [count_succ (by omega)]; omega)
    obtain ⟨hidle, hok, hout, hsent, has⟩ := ended_txAccepted hs' (by simp only; omega) hflen hlast
    exact ⟨_, run_succ_of_step 0 (step_txStep_accept hagenda hs.1 hanswers (by omega)), hout, hidle, hok, hsent, has⟩
  | succ k ih =>
    intro s hs hagenda hanswers hleft hflen
    let s' : State :=
      { s with agenda := List.replicate (k + 1) .txStep, txAnswers := List.replicate (k + 1) .accept ++ as }
    have hsent : (s.txSent + 1#9).toNat = s.txSent.toNat + 1 := count_succ (by omega)
    have hmore : s.txSent + 1#9 ≠ s.txFlen := fun h => by rw [← h] at hleft; omega
    have hstep : step s = .next (txAccepted (txf s s.txSent.toNat) s') :=
      step_txStep_accept hagenda hs.1 hanswers (by omega)
    have hgoes := (sending_txAccepted (s := s') hs (by simp only [s']; omega) hflen hmore).1
    rw [txAccepted_of_ne (s := s') hmore] at hstep hgoes
    rw [run_succ_of_step (k + 1) hstep]
    exact ih hgoes rfl rfl (by simp only [s']; omega) hflen

/-- A TRANSMIT whose every byte is accepted appends exactly the image (R77, R79). -/
theorem run_transmit (hidle : s.phaseTx = .idle) (hframe : s.txFlen ≠ 0#9) (hflen : s.txFlen.toNat ≤ 259)
    (hanswers : s.txAnswers = List.replicate s.txFlen.toNat .accept ++ as) (h : exec .transmit s = .next t) :
    ∃ u, Host.Core.run core s.txFlen.toNat (t.scheduled (List.replicate s.txFlen.toNat .txStep)) = .next u ∧
      u.out = s.out ++ txImage s ∧ u.phaseTx = .idle ∧ u.txStatus = .ok ∧ u.txSent = s.txFlen ∧ u.txAnswers = as := by
  obtain ⟨hsending, himage⟩ := sending_exec_transmit hidle hframe h
  obtain rfl := Host.Outcome.next.inj ((exec_transmit_of_frame hidle hframe).symm.trans h)
  obtain ⟨k, hk⟩ := Nat.exists_eq_add_one_of_ne_zero (mt (BitVec.eq_of_toNat_eq (y := 0#9)) hframe)
  rw [hk] at hanswers ⊢
  exact run_txSteps k (s := State.scheduled _ _) hsending rfl hanswers ((Nat.zero_add _).trans hk.symm) hflen

/-! ### A reception run to its end -/

/-- No proper prefix of a buffer as long as its length byte asks for is itself that long. -/
theorem incomplete_of_prefix {cs : List Byte} (hcs : cs ≠ [])
    (hfull : (bs ++ cs).length = (byteAt (bs ++ cs) 2).toNat + 4) : bs.length ≠ (byteAt bs 2).toNat + 4 := by
  intro h
  have hpos := List.length_pos_iff.mpr hcs
  rw [byteAt_append_left (by omega), List.length_append] at hfull
  omega

/-- The bytes that are missing, one step each, end the reception (R81, R83). -/
theorem run_rxSteps (cs : List Byte) : ∀ {bs : List Byte} {s : State}, cs ≠ [] → Receiving bs s →
    s.rxNeed.toNat = bytesNeeded bs → s.agenda = List.replicate cs.length .rxStep → s.rxInEnded = false →
    s.rxIn = asEvents cs ++ es → (bs ++ cs).length = (byteAt (bs ++ cs) 2).toNat + 4 →
    ∃ u, Host.Core.run core cs.length s = .next u ∧ u.rxIn = es ∧ Received (bs ++ cs) u := by
  induction cs with
  | nil => exact fun hcs => absurd rfl hcs
  | cons b cs ih =>
    intro bs s _ hr hneed hagenda hopen hin hfull
    have ⟨hrecv, hcount, _⟩ := hr
    let s' : State := { s with agenda := List.replicate cs.length .rxStep, rxIn := asEvents cs ++ es }
    have hroom : bs.length ≤ 258 := by
      have := (byteAt (bs ++ b :: cs) 2).isLt
      rw [List.length_append, List.length_cons] at hfull
      omega
    have hrun : Host.Core.run core (cs.length + 1) s = Host.Core.run core cs.length (rxFinish (rxStored b s')) :=
      run_succ_of_step cs.length (step_rxStep_byte hagenda hrecv hopen hin (hcount ▸ hroom))
    have hr' := receiving_rxStored (s := s') hr hroom b
    have hneed' := rxNeed_rxStored (s := s') hr hneed hroom b
    rw [List.append_cons] at hfull ⊢
    rw [List.length_cons, hrun]
    cases cs with
    | nil =>
      rw [List.append_nil] at hfull ⊢
      exact ⟨_, rfl, rxFinish_rxIn _, received_rxFinish hr' hneed' hfull⟩
    | cons c cs =>
      rw [rxFinish_of_incomplete hr' hneed' (incomplete_of_prefix (List.cons_ne_nil c cs) hfull)]
      exact ih (List.cons_ne_nil c cs) hr' hneed' rfl hopen rfl hfull

/-- A RECEIVE whose channel holds the bytes its third byte asks for takes exactly those (R80, R83). -/
theorem run_receive (hidle : s.phaseRx = .idle) (hopen : s.rxInEnded = false)
    (hfull : bs.length = (byteAt bs 2).toNat + 4) (hin : s.rxIn = asEvents bs ++ es) (h : exec .receive s = .next t) :
    ∃ u, Host.Core.run core bs.length (t.scheduled (List.replicate bs.length .rxStep)) = .next u ∧ u.rxIn = es ∧
      Received bs u := by
  obtain rfl := Host.Outcome.next.inj ((exec_receive_of_idle hidle).symm.trans h)
  have hne : bs ≠ [] := List.ne_nil_of_length_pos (by omega)
  exact run_rxSteps bs (bs := []) (s := State.scheduled _ _) hne (receiving_receiveStarted s) rfl rfl hopen hin hfull

/-! ### The sender's frame at the receiver -/

theorem length_txFrameBytes_eq (hp : plen s ≤ 253) :
    (txFrameBytes s).length = (byteAt (txFrameBytes s) 2).toNat + 4 :=
  (framed_frameBytes (by rwa [length_txParams])).size

end

/-- Settles O37: `run_transmit` says what the sender emits, `run_receive` what the receiver makes of it, and
`decodeFrame_frameBytes` what it decodes to. -/
theorem sentFrameIsReceivedAsSent : Obligations.SentFrameIsReceivedAsSent := by
  intro s s₁ s₂ s₃ r r₁ es n htx hp hanswers hencode htransmit hsent hrx hopen hin hreceive
  obtain rfl := Host.Outcome.next.inj ((exec_encode_of_le htx hp).symm.trans hencode)
  have hn : (encoded s).txFlen.toNat = n := toNat_txFlen_encoded hp
  have hframe : (encoded s).txFlen ≠ 0#9 := fun h => by simp [h, n] at hn; omega
  obtain ⟨u, hrun, hout, -⟩ := run_transmit (s := encoded s) (as := []) htx hframe (by omega)
    (by rw [hn, List.append_nil]; exact hanswers) htransmit
  rw [hn] at hrun
  obtain rfl := Host.Outcome.next.inj (hrun.symm.trans hsent)
  have hbytes : u.out.drop s.out.length = txFrameBytes s := by
    rw [hout, txImage_encoded hp]; exact List.drop_left
  rw [hbytes] at hin
  obtain ⟨r₂, hrun₂, hrest, hend⟩ := run_receive hrx hopen (length_txFrameBytes_eq hp) hin hreceive
  rw [length_txFrameBytes] at hrun₂
  have hpub := hend.published
  rw [txFrameBytes, decodeFrame_frameBytes ((length_txParams s).trans_le hp)] at hpub
  obtain ⟨-, hcmd, hctrl, hplen, -, -, hvalid, hok⟩ := hpub
  refine ⟨r₂, hrun₂, hrest, hend.phase, hok, hvalid, hcmd, hctrl, hplen.trans (sentMessage_length_sub_two s),
    fun i hi => ?_⟩
  have hlt : 5 + i < (txFrameBytes s).length := by rw [length_txFrameBytes, plen]; omega
  calc rxf r₂ (5 + i) = byteAt (rxBuffer r₂ (txFrameBytes s).length) (5 + i) := (byteAt_readBytes _ _ hlt).symm
    _ = byteAt (txFrameBytes s) (5 + i) := by rw [hend.buffer]
    _ = txp s i := byteAt_txFrameBytes_param hi

end Sys2Proof.Machine

/-! A write to OP (43_control.md R87, R88): the operations by the engine whose phase decides on them, what each
phase makes of them, and NOP and RESET, which ask no phase. -/

namespace Sys2Proof

/-- Every operation is the one its own word decodes to (30_encoding.md R61, R62). -/
theorem decode_encode (i : Instr) : decode (encode i) = .ok i := by
  cases i <;> rfl

namespace Machine

section

variable {s : State} {i : Instr}

/-! ### The meaning of a legal word -/

theorem dispatchWord_encode (i : Instr) (s : State) : dispatchWord (encode i) s = exec i s := by
  rw [dispatchWord, decode_encode]

theorem exec_nop (s : State) : exec .nop s = .next (s.setOpErr .accepted) := rfl

theorem exec_reset (s : State) : exec .reset s = .next ((resetRegisters s).setOpErr .accepted) := rfl

/-! ### The operations complete and leave OPERR as acceptance set it -/

theorem encodeOp_next (s : State) : ∃ t, encodeOp s = .next t ∧ t.opErr = s.opErr := by
  rcases Nat.lt_or_ge 253 (plen s) with h | h
  · exact ⟨_, encodeOp_tooLong h, rfl⟩
  · exact ⟨_, encodeOp_ok h, rfl⟩

theorem transmitOp_next (s : State) : ∃ t, transmitOp s = .next t ∧ t.opErr = s.opErr := by
  by_cases h : s.txFlen = 0#9
  · exact ⟨_, if_pos h, rfl⟩
  · exact ⟨_, if_neg h, rfl⟩

theorem checksumOp_next (s : State) : ∃ t, checksumOp s = .next t ∧ t.opErr = s.opErr := by
  rcases Nat.lt_or_ge 253 (plen s) with h | h
  · exact ⟨_, checksumOp_tooLong h, rfl⟩
  · exact ⟨_, checksumOp_ok h, rfl⟩

theorem receiveOp_next (s : State) : ∃ t, receiveOp s = .next t ∧ t.opErr = s.opErr := ⟨_, rfl, rfl⟩

theorem decodeOp_next_of_le (h : s.rxNbytes.toNat ≤ 259) : ∃ t, decodeOp s = .next t ∧ t.opErr = s.opErr :=
  ⟨_, decodeOp_ok h, publish_opErr s _⟩

/-- A TX operation is acceptance by `phase_tx`, and then a rule that completes and leaves OPERR alone. -/
theorem exec_of_mem_txOperations (hi : i ∈ txOperations) : ∃ op : State → Result,
    (∀ s, exec i s = acceptTx s op) ∧ ∀ s, ∃ t, op s = .next t ∧ t.opErr = s.opErr := by
  simp only [txOperations, List.mem_cons, List.not_mem_nil, or_false] at hi
  rcases hi with rfl | rfl | rfl
  · exact ⟨encodeOp, fun _ => rfl, encodeOp_next⟩
  · exact ⟨transmitOp, fun _ => rfl, transmitOp_next⟩
  · exact ⟨checksumOp, fun _ => rfl, checksumOp_next⟩

/-- An RX operation is acceptance by `phase_rx`, and then a rule that leaves OPERR alone and, for a legal RX_NBYTES,
completes. -/
theorem exec_of_mem_rxOperations (hi : i ∈ rxOperations) : ∃ op : State → Result,
    (∀ s, exec i s = acceptRx s op) ∧
      ∀ s : State, s.rxNbytes.toNat ≤ 259 → ∃ t, op s = .next t ∧ t.opErr = s.opErr := by
  simp only [rxOperations, List.mem_cons, List.not_mem_nil, or_false] at hi
  rcases hi with rfl | rfl
  · exact ⟨receiveOp, fun _ => rfl, fun s _ => receiveOp_next s⟩
  · exact ⟨decodeOp, fun _ => rfl, fun _ => decodeOp_next_of_le⟩

/-! ### The write of an operation's word, by the phase of its engine -/

theorem dispatchWord_tx_of_send (hi : i ∈ txOperations) (h : s.phaseTx = .send) :
    dispatchWord (encode i) s = .next (s.setOpErr .engineBusy) := by
  obtain ⟨op, hexec, -⟩ := exec_of_mem_txOperations hi
  rw [dispatchWord_encode, hexec, acceptTx_send h]

theorem dispatchWord_tx_of_failed (hi : i ∈ txOperations) (h : s.phaseTx = .failed) :
    dispatchWord (encode i) s = .next (s.setOpErr .engineFailed) := by
  obtain ⟨op, hexec, -⟩ := exec_of_mem_txOperations hi
  rw [dispatchWord_encode, hexec, acceptTx_failed h]

theorem dispatchWord_tx_of_idle (hi : i ∈ txOperations) (h : s.phaseTx = .idle) :
    dispatchWord (encode i) s = exec i (s.setOpErr .accepted) ∧
      ∃ t, dispatchWord (encode i) s = .next t ∧ t.opErr = .accepted := by
  obtain ⟨op, hexec, hop⟩ := exec_of_mem_txOperations hi
  have hrun : dispatchWord (encode i) s = op (s.setOpErr .accepted) := by
    rw [dispatchWord_encode, hexec, acceptTx_idle h]
  constructor
  · rw [hrun, hexec, acceptTx_idle (s := s.setOpErr .accepted) h]; rfl
  · rw [hrun]; exact hop _

theorem dispatchWord_rx_of_recv (hi : i ∈ rxOperations) (h : s.phaseRx = .recv) :
    dispatchWord (encode i) s = .next (s.setOpErr .engineBusy) := by
  obtain ⟨op, hexec, -⟩ := exec_of_mem_rxOperations hi
  rw [dispatchWord_encode, hexec, acceptRx_recv h]

theorem dispatchWord_rx_of_failed (hi : i ∈ rxOperations) (h : s.phaseRx = .failed) :
    dispatchWord (encode i) s = .next (s.setOpErr .engineFailed) := by
  obtain ⟨op, hexec, -⟩ := exec_of_mem_rxOperations hi
  rw [dispatchWord_encode, hexec, acceptRx_failed h]

theorem dispatchWord_rx_of_idle (hi : i ∈ rxOperations) (h : s.phaseRx = .idle) :
    dispatchWord (encode i) s = exec i (s.setOpErr .accepted) ∧
      (s.rxNbytes.toNat ≤ 259 → ∃ t, dispatchWord (encode i) s = .next t ∧ t.opErr = .accepted) := by
  obtain ⟨op, hexec, hop⟩ := exec_of_mem_rxOperations hi
  have hrun : dispatchWord (encode i) s = op (s.setOpErr .accepted) := by
    rw [dispatchWord_encode, hexec, acceptRx_idle h]
  constructor
  · rw [hrun, hexec, acceptRx_idle (s := s.setOpErr .accepted) h]; rfl
  · rw [hrun]; exact hop (s.setOpErr .accepted)

end

/-- Settles O20: by the word of NOP and its meaning. -/
theorem nopWritesOperrOnly : Obligations.NopWritesOperrOnly := ⟨decode_encode .nop, exec_nop⟩

/-- Settles O11: the illegal words, the words of NOP and RESET, and the words of each engine by its phase. -/
theorem dispatchDecidesInOrder : Obligations.DispatchDecidesInOrder := by
  intro s v
  refine ⟨fun hillegal => dispatchWord_of_illegal hillegal s, ?nop, ?reset, fun i hi hv => ?tx, fun i hi hv => ?rx⟩
  case nop => rintro rfl; exact (dispatchWord_encode .nop s).trans (exec_nop s)
  case reset => rintro rfl; exact (dispatchWord_encode .reset s).trans (exec_reset s)
  case tx =>
    subst hv
    exact ⟨dispatchWord_tx_of_send hi, dispatchWord_tx_of_failed hi, dispatchWord_tx_of_idle hi⟩
  case rx =>
    subst hv
    exact ⟨dispatchWord_rx_of_recv hi, dispatchWord_rx_of_failed hi, dispatchWord_rx_of_idle hi⟩

end Machine

end Sys2Proof

/-! What the host bus carries (43_control.md R85, R86): which location stands at an address, the number each location
reads as, and what it reads as after a host write. -/

namespace Sys2Proof.Machine

section

variable {s t : State} {a : Addr} {v : Word}

/-! ### The location at an address -/

theorem locate_addr (r : Reg) : locate r.addr = .reg r := by
  cases r <;> rfl

theorem locate_txParam (hlo : 0x100 ≤ a.toNat) (hhi : a.toNat ≤ 0x1FC) : locate a = .txParam (a.toNat - 0x100) := by
  rcases locate_cases a with ⟨r, -, -, h⟩ | ⟨i, e, h, -⟩ | ⟨i, -, h, -⟩ | ⟨i, -, h, -⟩ | ⟨-, -, h, -⟩
  case inr.inl => rw [e, h, Nat.add_sub_cancel_left]
  all_goals omega

theorem locate_txFrame (hlo : 0x200 ≤ a.toNat) (hhi : a.toNat ≤ 0x302) : locate a = .txFrame (a.toNat - 0x200) := by
  rcases locate_cases a with ⟨r, -, -, h⟩ | ⟨i, -, h, hi⟩ | ⟨i, e, h, -⟩ | ⟨i, -, h, -⟩ | ⟨-, -, -, h, -⟩
  case inr.inr.inl => rw [e, h, Nat.add_sub_cancel_left]
  all_goals omega

theorem locate_rxFrame (hlo : 0x400 ≤ a.toNat) (hhi : a.toNat ≤ 0x502) : locate a = .rxFrame (a.toNat - 0x400) := by
  rcases locate_cases a with ⟨r, -, -, h⟩ | ⟨i, -, h, hi⟩ | ⟨i, -, h, hi⟩ | ⟨i, e, h, -⟩ | ⟨-, -, -, -, h⟩
  case inr.inr.inr.inl => rw [e, h, Nat.add_sub_cancel_left]
  all_goals omega

theorem locate_reserved (h : (0x013 ≤ a.toNat ∧ a.toNat ≤ 0x0FF) ∨ (0x1FD ≤ a.toNat ∧ a.toNat ≤ 0x1FF) ∨
    (0x303 ≤ a.toNat ∧ a.toNat ≤ 0x3FF) ∨ 0x503 ≤ a.toNat) : locate a = .reserved := by
  rcases locate_cases a with ⟨r, -, -, h'⟩ | ⟨i, -, h', hi⟩ | ⟨i, -, h', hi⟩ | ⟨i, -, h', hi⟩ | ⟨e, -⟩
  case inr.inr.inr.inr => exact e
  all_goals omega

/-! ### A field in a location -/

/-- A field of at most 16 bits fills the low end of its location (10_state.md R13). -/
theorem toNat_zeroExtend_word {w : Nat} (hw : w ≤ 16) (x : BitVec w) : (x.zeroExtend 16 : Word).toNat = x.toNat :=
  BitVec.toNat_setWidth_of_le hw

/-- A field placed above the bits of `lo` adds its own weight to them. -/
theorem toNat_field_or {w i : Nat} (x : BitVec w) {lo : Word} (hw : w + i ≤ 16) (hlo : lo.toNat < 2 ^ i) :
    ((x.zeroExtend 16 : Word) <<< i ||| lo).toNat = x.toNat * 2 ^ i + lo.toNat := by
  have hfit : x.toNat <<< i < 2 ^ 16 :=
    calc x.toNat <<< i = x.toNat * 2 ^ i := Nat.shiftLeft_eq _ _
      _ < 2 ^ w * 2 ^ i := Nat.mul_lt_mul_of_pos_right x.isLt (Nat.two_pow_pos i)
      _ = 2 ^ (w + i) := (Nat.pow_add 2 w i).symm
      _ ≤ 2 ^ 16 := Nat.pow_le_pow_right (by decide) hw
  rw [BitVec.toNat_or, BitVec.toNat_shiftLeft, toNat_zeroExtend_word (by omega), Nat.mod_eq_of_lt hfit,
    ← Nat.shiftLeft_add_eq_or_of_lt hlo, Nat.shiftLeft_eq]

theorem toNat_flagBit_or (f : Bool) {i : Nat} {lo : Word} (hi : i < 16) (hlo : lo.toNat < 2 ^ i) :
    (flagBit f i ||| lo).toNat = f.toNat * 2 ^ i + lo.toNat := by
  rw [flagBit, toNat_field_or _ (by omega) hlo, BitVec.toNat_ofBool]

/-- GSTATUS as a number: its fields lie side by side (10_state.md R16, 43_control.md R85). -/
theorem toNat_gstatus (s : State) : (gstatus s).toNat =
    s.opErr.code.toNat * 16 + (rxFailed s).toNat * 8 + (txFailed s).toNat * 4 + (rxBusy s).toNat * 2 +
      (txBusy s).toNat := by
  have htx := (txBusy s).toNat_lt
  have hrx := (rxBusy s).toNat_lt
  have htxf := (txFailed s).toNat_lt
  have hrxf := (rxFailed s).toNat_lt
  have h0 : (flagBit (txBusy s) 0).toNat = (txBusy s).toNat := by simp [flagBit]; omega
  have h1 := toNat_flagBit_or (rxBusy s) (i := 1) (lo := flagBit (txBusy s) 0) (by decide) (by omega)
  have h2 := toNat_flagBit_or (txFailed s) (i := 2) (by decide) (h1.trans_lt (by omega))
  have h3 := toNat_flagBit_or (rxFailed s) (i := 3) (by decide) (h2.trans_lt (by omega))
  have h4 := toNat_field_or s.opErr.code (i := 4) (by decide) (h3.trans_lt (by omega))
  simp only [gstatus, BitVec.or_assoc]
  omega

/-! ### What a read returns -/

/-- The field a register holds, as a number (10_state.md R12). -/
def fieldOf : Reg → State → Nat
  | .op, _ => 0
  | .gstatus, s =>
    s.opErr.code.toNat * 16 + (rxFailed s).toNat * 8 + (txFailed s).toNat * 4 + (rxBusy s).toNat * 2 +
      (txBusy s).toNat
  | .txStatus, s => s.txStatus.code.toNat
  | .rxStatus, s => s.rxStatus.code.toNat
  | .txCmd, s => s.txCmd.toNat
  | .txCtrl, s => s.txCtrl.toNat
  | .txPlen, s => s.txPlen.toNat
  | .txCsum, s => s.txCsum.toNat
  | .txFlen, s => s.txFlen.toNat
  | .txSent, s => s.txSent.toNat
  | .rxNbytes, s => s.rxNbytes.toNat
  | .rxCount, s => s.rxCount.toNat
  | .rxLen, s => s.rxLen.toNat
  | .rxCmd, s => s.rxCmd.toNat
  | .rxCtrl, s => s.rxCtrl.toNat
  | .rxPlen, s => s.rxPlen.toNat
  | .rxCsumExp, s => s.rxCsumExp.toNat
  | .rxCsumRcv, s => s.rxCsumRcv.toNat
  | .rxValid, s => s.rxValid.toNat

theorem toNat_readReg (r : Reg) (s : State) : (readReg r s).toNat = fieldOf r s := by
  cases r with
  | op => rfl
  | gstatus => exact toNat_gstatus s
  | rxValid => exact (toNat_zeroExtend_word (by decide) _).trans (BitVec.toNat_ofBool _)
  | _ => exact toNat_zeroExtend_word (by decide) _

theorem toNat_memRead_addr (r : Reg) (s : State) : (memRead r.addr s).toNat = fieldOf r s := by
  rw [memRead, locate_addr]
  exact toNat_readReg r s

theorem toNat_memRead_txParam (hlo : 0x100 ≤ a.toNat) (hhi : a.toNat ≤ 0x1FC) (s : State) :
    (memRead a s).toNat = (txp s (a.toNat - 0x100)).toNat := by
  rw [memRead, locate_txParam hlo hhi]
  exact toNat_zeroExtend_word (by decide) _

theorem toNat_memRead_txFrame (hlo : 0x200 ≤ a.toNat) (hhi : a.toNat ≤ 0x302) (s : State) :
    (memRead a s).toNat = (txf s (a.toNat - 0x200)).toNat := by
  rw [memRead, locate_txFrame hlo hhi]
  exact toNat_zeroExtend_word (by decide) _

theorem toNat_memRead_rxFrame (hlo : 0x400 ≤ a.toNat) (hhi : a.toNat ≤ 0x502) (s : State) :
    (memRead a s).toNat = (rxf s (a.toNat - 0x400)).toNat := by
  rw [memRead, locate_rxFrame hlo hhi]
  exact toNat_zeroExtend_word (by decide) _

/-! ### What a write stores -/

theorem toNat_lowByte (v : Word) : (lowByte v).toNat = v.toNat % 256 := by
  simp [lowByte]

theorem toNat_clampCount (v : Word) : (clampCount v).toNat = min (v.toNat % 512) 259 := by
  have hlow : (lowCount v).toNat = v.toNat % 512 := by simp [lowCount]
  unfold clampCount
  split
  · next h =>
    rw [hlow, Config.maxFrame] at h
    rw [Nat.min_eq_right h.le]; rfl
  · next h =>
    rw [hlow, Config.maxFrame] at h
    rw [hlow, Nat.min_eq_left (not_lt.mp h)]

theorem memWrite_txParam (hlo : 0x100 ≤ a.toNat) (hhi : a.toNat ≤ 0x1FC) (v : Word) (s : State) :
    memWrite a v s = .next (s.storeByte a.toNat (lowByte v)) := by
  rw [memWrite, locate_txParam hlo hhi]
  simp only [Config.txParamBase, Nat.add_sub_cancel' hlo]

theorem memWrite_rxFrame (hlo : 0x400 ≤ a.toNat) (hhi : a.toNat ≤ 0x502) (v : Word) (hidle : s.phaseRx = .idle) :
    memWrite a v s = .next (s.storeByte a.toNat (lowByte v)) := by
  rw [memWrite, locate_rxFrame hlo hhi]
  simp only [Config.rxFrameBase, Nat.add_sub_cancel' hlo, hidle, if_true]

theorem memWrite_rxNbytes (v : Word) (hidle : s.phaseRx = .idle) :
    memWrite 0x00A#12 v s = .next { s with rxNbytes := clampCount v } := if_pos hidle

/-- A byte stored at a location of TX_PARAM is what that location then reads. -/
theorem toNat_memRead_storeByte_txParam (hlo : 0x100 ≤ a.toNat) (hhi : a.toNat ≤ 0x1FC) (s : State) (x : Byte) :
    (memRead a (s.storeByte a.toNat x)).toNat = x.toNat := by
  rw [toNat_memRead_txParam hlo hhi, txp, Nat.add_sub_cancel' hlo, storeByte_mem, read_write_self]

/-- A byte stored at a location of RX_FRAME is what that location then reads. -/
theorem toNat_memRead_storeByte_rxFrame (hlo : 0x400 ≤ a.toNat) (hhi : a.toNat ≤ 0x502) (s : State) (x : Byte) :
    (memRead a (s.storeByte a.toNat x)).toNat = x.toNat := by
  rw [toNat_memRead_rxFrame hlo hhi, rxf, Nat.add_sub_cancel' hlo, storeByte_mem, read_write_self]

/-- TX_CMD, TX_CTRL and TX_PLEN take the low byte written, in every phase (R86). -/
theorem toNat_memRead_of_memWrite_txReg (hlo : 4 ≤ a.toNat) (hhi : a.toNat ≤ 6) (h : memWrite a v s = .next t) :
    (memRead a t).toNat = v.toNat % 256 := by
  have hreg : a = Reg.txCmd.addr ∨ a = Reg.txCtrl.addr ∨ a = Reg.txPlen.addr := by
    simp only [Reg.addr]; bv_omega
  rcases hreg with rfl | rfl | rfl <;> cases h <;> exact (toNat_memRead_addr _ _).trans (toNat_lowByte v)

/-- The locations that take a byte: TX_CMD, TX_CTRL, TX_PLEN and TX_PARAM always, RX_FRAME while `phase_rx = IDLE`
(R86). -/
theorem toNat_memRead_of_memWrite_byte (h : memWrite a v s = .next t)
    (ha : (4 ≤ a.toNat ∧ a.toNat ≤ 6) ∨ (0x100 ≤ a.toNat ∧ a.toNat ≤ 0x1FC) ∨
      (0x400 ≤ a.toNat ∧ a.toNat ≤ 0x502 ∧ s.phaseRx = .idle)) :
    (memRead a t).toNat = v.toNat % 256 := by
  rcases ha with ⟨hlo, hhi⟩ | ⟨hlo, hhi⟩ | ⟨hlo, hhi, hidle⟩
  · exact toNat_memRead_of_memWrite_txReg hlo hhi h
  · obtain rfl := Host.Outcome.next.inj ((memWrite_txParam hlo hhi v s).symm.trans h)
    rw [toNat_memRead_storeByte_txParam hlo hhi, toNat_lowByte]
  · obtain rfl := Host.Outcome.next.inj ((memWrite_rxFrame hlo hhi v hidle).symm.trans h)
    rw [toNat_memRead_storeByte_rxFrame hlo hhi, toNat_lowByte]

/-- RX_NBYTES takes the count written, at most 259, while `phase_rx = IDLE` (R86, 10_state.md R24). -/
theorem toNat_memRead_of_memWrite_rxNbytes (hidle : s.phaseRx = .idle) (h : memWrite 0x00A#12 v s = .next t) :
    (memRead 0x00A#12 t).toNat = min (v.toNat % 512) 259 := by
  obtain rfl := Host.Outcome.next.inj ((memWrite_rxNbytes v hidle).symm.trans h)
  exact (toNat_memRead_addr .rxNbytes _).trans (toNat_clampCount v)

/-- A write to any other location but OP is ignored (R86): it is none of the writes `memWrite_cases` lists. -/
theorem memWrite_ignored (ha : a ≠ 0x000#12) (h : memWrite a v s = .next t)
    (hother : ¬((4 ≤ a.toNat ∧ a.toNat ≤ 6) ∨ (0x100 ≤ a.toNat ∧ a.toNat ≤ 0x1FC) ∨
      (0x400 ≤ a.toNat ∧ a.toNat ≤ 0x502 ∧ s.phaseRx = .idle) ∨ (a.toNat = 0x00A ∧ s.phaseRx = .idle))) :
    t = s := by
  simp only [not_or, not_and] at hother
  obtain ⟨hreg, hparam, hframe, hnbytes⟩ := hother
  rcases memWrite_cases ha h with
    rfl | ⟨rfl, -⟩ | ⟨rfl, -⟩ | ⟨rfl, -⟩ | ⟨rfl, hidle, -⟩ | ⟨i, hi, hlt, -⟩ | ⟨i, hi, hlt, hidle, -⟩
  · rfl
  iterate 3 exact absurd (by decide) (hreg (by decide))
  · exact absurd hidle (hnbytes rfl)
  · exact absurd (by omega) (hparam (by omega))
  · exact absurd hidle (hframe (by omega) (by omega))

end

/-- Settles O39: a register by its field, a buffer location by its byte, the rest by `locate_reserved`. -/
theorem hostReadValues : Obligations.HostReadValues := by
  intro s
  have hreg : ∀ r : Reg, (memRead r.addr s).toNat = fieldOf r s := fun r => toNat_memRead_addr r s
  refine ⟨rfl, hreg .gstatus, hreg .txStatus, hreg .rxStatus, hreg .txCmd, hreg .txCtrl, hreg .txPlen, hreg .txCsum,
    hreg .txFlen, hreg .txSent, hreg .rxNbytes, hreg .rxCount, hreg .rxLen, hreg .rxCmd, hreg .rxCtrl, hreg .rxPlen,
    hreg .rxCsumExp, hreg .rxCsumRcv, hreg .rxValid, fun a => ⟨?_, ?_, ?_, fun h => ?_⟩⟩
  · exact fun ⟨hlo, hhi⟩ => toNat_memRead_txParam hlo hhi s
  · exact fun ⟨hlo, hhi⟩ => toNat_memRead_txFrame hlo hhi s
  · exact fun ⟨hlo, hhi⟩ => toNat_memRead_rxFrame hlo hhi s
  · rw [memRead, locate_reserved h]

/-- Settles O40: a write elsewhere than to OP completes, and is one of the bytes taken, RX_NBYTES or ignored. -/
theorem hostWriteStores : Obligations.HostWriteStores := by
  intro a v s n idle
  refine ⟨fun h0 => ?op, fun h0 => ?other⟩
  case op =>
    obtain rfl : a = 0x000#12 := BitVec.eq_of_toNat_eq h0
    exact memWrite_op v s
  case other =>
    have ha : a ≠ 0x000#12 := fun e => h0 (congrArg BitVec.toNat e)
    obtain ⟨t, ht⟩ := memWrite_next v ha s
    refine ⟨t, ht, toNat_memRead_of_memWrite_byte ht, fun ⟨hn, hidle⟩ => ?_, memWrite_ignored ha ht⟩
    obtain rfl : a = 0x00A#12 := BitVec.eq_of_toNat_eq hn
    exact toNat_memRead_of_memWrite_rxNbytes hidle ht

end Sys2Proof.Machine

/-! The reset state (70_reset_and_hazards.md R102): what every register reads after power-on reset and after RESET. -/

namespace Sys2Proof.Machine

/-- After power-on reset each register holds its value in the reset column of 10_state.md R12. -/
theorem readReg_powerOn (r : Reg) : readReg r State.reset = resetValue r := by
  cases r <;> decide

/-- `Reset()` leaves each register as power-on reset does: of what it keeps, no register holds anything. -/
theorem readReg_resetRegisters (r : Reg) (s : State) : readReg r (resetRegisters s) = readReg r State.reset := by
  cases r <;> rfl

theorem memRead_addr (r : Reg) (s : State) : memRead r.addr s = readReg r s := by
  rw [memRead, locate_addr]

/-- RESET is `Reset()` alone (43_control.md R89): `Reset()` leaves OPERR 0, so writing 0 to it changes nothing. -/
theorem exec_reset_eq_resetRegisters (s : State) : exec .reset s = .next (resetRegisters s) :=
  calc exec .reset s = .next ((resetRegisters s).setOpErr .accepted) := exec_reset s
    _ = .next (resetRegisters s) := congrArg _ (setOpErr_eq_self (resetRegisters_opErr s))

/-- Settles O1: every register reads at its address what `State.reset` gives it, and RESET's next state agrees with
`State.reset` on all that a register reads. -/
theorem resetGivesTheResetState : Obligations.ResetGivesTheResetState := by
  have hpowerOn (r : Reg) : memRead r.addr State.reset = resetValue r :=
    (memRead_addr r State.reset).trans (readReg_powerOn r)
  have hreset (s : State) (r : Reg) : memRead r.addr (resetRegisters s) = resetValue r :=
    calc memRead r.addr (resetRegisters s) = readReg r (resetRegisters s) := memRead_addr r _
      _ = readReg r State.reset := readReg_resetRegisters r s
      _ = resetValue r := readReg_powerOn r
  refine ⟨⟨hpowerOn, rfl, rfl, rfl, rfl⟩, decode_encode .reset, fun s => ?_⟩
  exact ⟨resetRegisters s, exec_reset_eq_resetRegisters s, hreset s, resetRegisters_phaseTx s, resetRegisters_phaseRx s,
    resetRegisters_rxNeed s, resetRegisters_mem s, resetRegisters_rxIn s, resetRegisters_rxInEnded s,
    resetRegisters_out s, resetRegisters_txAnswers s, resetRegisters_agenda s, resetRegisters_hostReads s⟩

end Sys2Proof.Machine

/-! The decoder against the encoder and against its errors (40_frame_codec.md R68, 60_exceptions.md R92, R93): a buffer
that decodes is the frame of the message it decodes to, and each error has one cause. -/

namespace Sys2Proof.Machine

section

variable {bs cs : List Byte} {m : Message}

/-! ### A buffer that decodes is a frame -/

theorem eq_of_byteAt_eq (hlen : bs.length = cs.length) (h : ∀ i, i < cs.length → byteAt bs i = byteAt cs i) :
    bs = cs := by
  refine List.ext_getElem hlen fun i hi hi' => ?_
  simpa [byteAt, List.getD_eq_getElem?_getD, hi, hi'] using h i hi'

theorem byteAt_paramsOf {l i : Nat} (h : i < l - 2) : byteAt (paramsOf bs l) i = byteAt bs (5 + i) := by
  simp [byteAt, paramsOf, List.getElem?_take_of_lt h]

/-- A buffer that decodes is the frame of what it decodes to, place by place (R68). -/
theorem frameBytes_messageOf (h : Framed bs) (hc : expectedOf bs = (messageOf bs).checksum) :
    frameBytes (messageOf bs).commandId (messageOf bs).control (messageOf bs).params = bs := by
  obtain ⟨⟨hhdr0, hhdr1⟩, htwo, hsize⟩ := h
  have hlen : (messageOf bs).params.length = (byteAt bs 2).toNat - 2 := length_paramsOf hsize
  refine eq_of_byteAt_eq (by rw [length_frameBytes, hlen]; omega) fun i hi => ?_
  match i with
  | 0 => exact hhdr0.symm
  | 1 => exact hhdr1.symm
  | 2 => rw [byteAt_frameBytes_two, hlen, Nat.sub_add_cancel htwo, BitVec.ofNat_toNat, BitVec.setWidth_eq]
  | 3 => rfl
  | 4 => rfl
  | j + 5 =>
    rw [Nat.add_comm j 5]
    by_cases hj : j < (messageOf bs).params.length
    · rw [byteAt_frameBytes_param _ _ _ hj]
      exact byteAt_paramsOf (hlen ▸ hj)
    · have hlast : j = (messageOf bs).params.length := by omega
      have hplace : 5 + ((byteAt bs 2).toNat - 2) = (byteAt bs 2).toNat + 3 := by omega
      rw [hlast, byteAt_frameBytes_checksum, hlen, hplace]
      exact hc

/-- What a decode that succeeds has found, and what it answers (R67, R68). -/
theorem decodeFrame_eq_ok_iff :
    decodeFrame bs = .ok m ↔ Framed bs ∧ expectedOf bs = (messageOf bs).checksum ∧ m = messageOf bs := by
  constructor
  · intro h
    obtain ⟨hf, hc⟩ := exists_decodeFrame_eq_ok_iff.mp ⟨m, h⟩
    rw [decodeFrame_of_framed hf, if_pos hc] at h
    exact ⟨hf, hc, (Except.ok.inj h).symm⟩
  · rintro ⟨hf, hc, rfl⟩
    rw [decodeFrame_of_framed hf, if_pos hc]

/-- A message with the length and the checksum of its own frame is the one that frame carries. -/
theorem eq_sentMessage (hlen : m.length.toNat = m.params.length + 2)
    (hsum : m.checksum = checksum m.commandId m.control m.params) :
    m = sentMessage m.commandId m.control m.params := by
  obtain ⟨length, cmd, ctrl, ps, sum⟩ := m
  simp only at hlen hsum
  rw [sentMessage, hsum, ← hlen, BitVec.ofNat_toNat, BitVec.setWidth_eq]

/-! ### The causes of the decoder's errors -/

theorem decodeFrame_of_short (h : bs.length < 6) : decodeFrame bs = .error .truncated := if_pos h

theorem decodeFrame_eq_truncated_iff :
    decodeFrame bs = .error .truncated ↔
      bs.length < 6 ∨ (6 ≤ bs.length ∧ headerGood bs ∧ 2 ≤ (byteAt bs 2).toNat ∧
        bs.length < (byteAt bs 2).toNat + 4) := by
  constructor
  · intro h
    rcases decodeFrame_cases bs with
      ⟨hn, -⟩ | ⟨-, -, e⟩ | ⟨-, -, -, e⟩ | ⟨hn, hh, hl, hlt, -⟩ | ⟨-, -, -, e⟩ | ⟨-, -, -, -, e⟩ | ⟨-, -, -, -, e⟩
    case inl => exact .inl hn
    case inr.inr.inr.inl => exact .inr ⟨hn, hh, hl, hlt⟩
    all_goals cases h.symm.trans e
  · rintro (hn | ⟨hn, hh, -, hlt⟩)
    · exact decodeFrame_of_short hn
    · exact decodeFrame_of_too_few hn hh hlt

theorem decodeFrame_eq_badHeader_iff :
    decodeFrame bs = .error .badHeader ↔ 6 ≤ bs.length ∧ ¬headerGood bs := by
  constructor
  · intro h
    rcases decodeFrame_cases bs with
      ⟨-, e⟩ | ⟨hn, hh, -⟩ | ⟨-, -, -, e⟩ | ⟨-, -, -, -, e⟩ | ⟨-, -, -, e⟩ | ⟨-, -, -, -, e⟩ | ⟨-, -, -, -, e⟩
    case inr.inl => exact ⟨hn, hh⟩
    all_goals cases h.symm.trans e
  · exact fun ⟨hn, hh⟩ => decodeFrame_of_bad_header hn hh

theorem decodeFrame_eq_badLength_iff :
    decodeFrame bs = .error .badLength ↔
      6 ≤ bs.length ∧ headerGood bs ∧ ((byteAt bs 2).toNat < 2 ∨ (byteAt bs 2).toNat + 4 < bs.length) := by
  constructor
  · intro h
    rcases decodeFrame_cases bs with
      ⟨-, e⟩ | ⟨-, -, e⟩ | ⟨hn, hh, hl, -⟩ | ⟨-, -, -, -, e⟩ | ⟨hh, hl, hlt, -⟩ | ⟨-, -, -, -, e⟩ | ⟨-, -, -, -, e⟩
    case inr.inr.inl => exact ⟨hn, hh, .inl hl⟩
    case inr.inr.inr.inr.inl => exact ⟨by omega, hh, .inr hlt⟩
    all_goals cases h.symm.trans e
  · exact fun ⟨hn, hh, hl⟩ => decodeFrame_of_bad_length hn hh hl

theorem decodeFrame_eq_integrityMismatch_iff {e c : Byte} :
    decodeFrame bs = .error (.integrityMismatch e c) ↔
      Framed bs ∧ e = expectedOf bs ∧ c = (messageOf bs).checksum ∧ e ≠ c := by
  constructor
  · intro h
    rcases decodeFrame_cases bs with
      ⟨-, e⟩ | ⟨-, -, e⟩ | ⟨-, -, -, e⟩ | ⟨-, -, -, -, e⟩ | ⟨-, -, -, e⟩ | ⟨hh, hl, hn, hne, e⟩ | ⟨-, -, -, -, e⟩
    case inr.inr.inr.inr.inr.inl =>
      cases h.symm.trans e
      exact ⟨⟨hh, hl, hn⟩, rfl, rfl, hne⟩
    all_goals cases h.symm.trans e
  · rintro ⟨hf, rfl, rfl, hne⟩
    rw [decodeFrame_of_framed hf, if_neg hne]

end

/-- Settles O16: a buffer that decodes is the frame of its message (`frameBytes_messageOf`), and such a frame decodes
(`decodeFrame_frameBytes`). -/
theorem decoderAcceptsExactlyEncoderOutput : Obligations.DecoderAcceptsExactlyEncoderOutput := by
  intro bs m
  constructor
  · intro h
    obtain ⟨hf, hc, rfl⟩ := decodeFrame_eq_ok_iff.mp h
    have hlen : (messageOf bs).params.length = (byteAt bs 2).toNat - 2 := length_paramsOf hf.size
    have htwo := hf.two_le
    have hmax := (byteAt bs 2).isLt
    refine ⟨?_, by rw [hlen]; exact (Nat.sub_add_cancel htwo).symm, hc.symm⟩
    rw [encodeFrame_of_le (by omega), frameBytes_messageOf hf hc]
  · rintro ⟨hencode, hlen, hsum⟩
    have hp : m.params.length ≤ 253 := by have := m.length.isLt; omega
    obtain rfl := Except.ok.inj ((encodeFrame_of_le hp).symm.trans hencode)
    rw [decodeFrame_frameBytes hp, ← eq_sentMessage hlen hsum]

/-- Settles O17: each error by its own equivalence; a frame-sized buffer with a good header is `Framed`. -/
theorem decodeErrorCauses : Obligations.DecodeErrorCauses := by
  intro bs n l header
  refine ⟨decodeFrame_eq_truncated_iff, decodeFrame_eq_badHeader_iff, decodeFrame_eq_badLength_iff, fun e c => ?_⟩
  rw [decodeFrame_eq_integrityMismatch_iff]
  constructor
  · exact fun ⟨⟨hh, hl, hn⟩, he, hc, hne⟩ => ⟨hl, hn, hh, he, hc, hne⟩
  · exact fun ⟨hl, hn, hh, he, hc, hne⟩ => ⟨⟨hh, hl, hn⟩, he, hc, hne⟩

end Sys2Proof.Machine

/-! All that an operation and a step can do, said once: one constructor per outcome, with the next state written out.
The rules of the whole machine are read off these two lists. -/

namespace Sys2Proof.Machine

/-- What an operation makes of a state (43_control.md R87 to R89, 40_frame_codec.md R70, R71, 41_checksum.md R76,
42_transport_framing.md R77, R80). -/
inductive OpEffect (s : State) : Instr → State → Prop
  | nop : OpEffect s .nop (s.setOpErr .accepted)
  | reset : OpEffect s .reset (resetRegisters s)
  | txBusy {i : Instr} (hi : i ∈ txOperations) (hsend : s.phaseTx = .send) : OpEffect s i (s.setOpErr .engineBusy)
  | txFailed {i : Instr} (hi : i ∈ txOperations) (hfailed : s.phaseTx = .failed) :
      OpEffect s i (s.setOpErr .engineFailed)
  | rxBusy {i : Instr} (hi : i ∈ rxOperations) (hrecv : s.phaseRx = .recv) : OpEffect s i (s.setOpErr .engineBusy)
  | rxFailed {i : Instr} (hi : i ∈ rxOperations) (hfailed : s.phaseRx = .failed) :
      OpEffect s i (s.setOpErr .engineFailed)
  | encode (hidle : s.phaseTx = .idle) (hp : plen s ≤ 253) : OpEffect s .encode (encoded s)
  | encodeTooLong (hidle : s.phaseTx = .idle) (hp : 253 < plen s) :
      OpEffect s .encode { s with opErr := .accepted, txFlen := 0#9, txStatus := .paramsTooLong }
  | checksum (hidle : s.phaseTx = .idle) (hp : plen s ≤ 253) :
      OpEffect s .checksum
        { s with opErr := .accepted, txCsum := checksum s.txCmd s.txCtrl (txParams s), txStatus := .ok }
  | checksumTooLong (hidle : s.phaseTx = .idle) (hp : 253 < plen s) :
      OpEffect s .checksum { s with opErr := .accepted, txStatus := .paramsTooLong }
  | transmit (hidle : s.phaseTx = .idle) (hflen : s.txFlen ≠ 0#9) :
      OpEffect s .transmit { s with opErr := .accepted, txSent := 0#9, phaseTx := .send, txStatus := .inProgress }
  | transmitNothing (hidle : s.phaseTx = .idle) (hflen : s.txFlen = 0#9) :
      OpEffect s .transmit { s with opErr := .accepted, txSent := 0#9, txStatus := .ok }
  | receive (hidle : s.phaseRx = .idle) : OpEffect s .receive (receiveStarted s)
  | decode (hidle : s.phaseRx = .idle) (hn : s.rxNbytes.toNat ≤ 259) :
      OpEffect s .decode (publish (decodeFrame (rxBuffer s s.rxNbytes.toNat)) (s.setOpErr .accepted))

/-- What one agent's action can make of a state (43_control.md R86, R87, 42_transport_framing.md R78, R81, R82,
20_memory.md R42, R47, R48). -/
inductive Effect (s : State) : Action → State → Prop
  | hostRead (a : Addr) : Effect s (.hostRead a) (hostReadStep a s)
  | illegalWord (v : Word) : Effect s (.hostWrite 0x000#12 v) (s.setOpErr .illegalOp)
  | operation {i : Instr} {t : State} (h : OpEffect s i t) : Effect s (.hostWrite 0x000#12 (encode i)) t
  /-- A host write that reaches one of TX_CMD, TX_CTRL and TX_PLEN, or is ignored (`HostWriteStores` says which). -/
  | writeOperand (a : Addr) (v : Word) (cmd ctrl plen : Byte) :
      Effect s (.hostWrite a v) { s with txCmd := cmd, txCtrl := ctrl, txPlen := plen }
  | writeRxNbytes (v : Word) (hidle : s.phaseRx = .idle) :
      Effect s (.hostWrite 0x00A#12 v) { s with rxNbytes := clampCount v }
  | writeTxParam {a : Addr} (v : Word) {i : Nat} (ha : a.toNat = 0x100 + i) (hi : i < 253) :
      Effect s (.hostWrite a v) (s.storeByte a.toNat (lowByte v))
  | writeRxFrame {a : Addr} (v : Word) {i : Nat} (ha : a.toNat = 0x400 + i) (hi : i < 259)
      (hidle : s.phaseRx = .idle) : Effect s (.hostWrite a v) (s.storeByte a.toNat (lowByte v))
  | txHold (h : s.phaseTx ≠ .send ∨ s.txAnswers = []) : Effect s .txStep s
  | txByte {as : List TxAnswer} (hsend : s.phaseTx = .send) (hanswer : s.txAnswers = .accept :: as)
      (hroom : s.txSent.toNat ≤ 258) (hmore : s.txSent + 1#9 ≠ s.txFlen) :
      Effect s .txStep
        { s with txAnswers := as, out := s.out ++ [txf s s.txSent.toNat], txSent := s.txSent + 1#9 }
  | txLast {as : List TxAnswer} (hsend : s.phaseTx = .send) (hanswer : s.txAnswers = .accept :: as)
      (hroom : s.txSent.toNat ≤ 258) (hlast : s.txSent + 1#9 = s.txFlen) :
      Effect s .txStep
        { s with txAnswers := as, out := s.out ++ [txf s s.txSent.toNat], txSent := s.txSent + 1#9,
                 phaseTx := .idle, txStatus := .ok }
  | txError {as : List TxAnswer} (hsend : s.phaseTx = .send) (hanswer : s.txAnswers = .error :: as) :
      Effect s .txStep { s with txAnswers := as, phaseTx := .failed, txStatus := .transportFailure }
  | rxHold (h : s.phaseRx ≠ .recv ∨ s.rxInEnded = true ∨ s.rxIn = []) : Effect s .rxStep s
  | rxByte {b : Byte} {es : List RxEvent} (hrecv : s.phaseRx = .recv) (hopen : s.rxInEnded = false)
      (hin : s.rxIn = .byte b :: es) (hroom : s.rxCount.toNat ≤ 258)
      (hmore : s.rxCount + 1#9 ≠ needAfter b (s.rxCount + 1#9) s.rxNeed) :
      Effect s .rxStep (rxStored b { s with rxIn := es })
  | rxLast {b : Byte} {es : List RxEvent} (hrecv : s.phaseRx = .recv) (hopen : s.rxInEnded = false)
      (hin : s.rxIn = .byte b :: es) (hroom : s.rxCount.toNat ≤ 258)
      (hlast : s.rxCount + 1#9 = needAfter b (s.rxCount + 1#9) s.rxNeed) :
      Effect s .rxStep
        (publish (decodeFrame (rxBuffer (rxStored b { s with rxIn := es }) (s.rxCount + 1#9).toNat))
          { rxStored b { s with rxIn := es } with rxNbytes := s.rxCount + 1#9, phaseRx := .idle })
  | rxEnd {e : RxEvent} {es : List RxEvent} (hrecv : s.phaseRx = .recv) (hopen : s.rxInEnded = false)
      (hin : s.rxIn = e :: es) (hend : e.ending = true) :
      Effect s .rxStep
        { s with rxIn := [], rxInEnded := true, rxNbytes := s.rxCount, phaseRx := .failed,
                 rxStatus := .transportFailure }
  | offerLost (e : RxEvent) : Effect s (.offer e) s
  | offer (e : RxEvent) (hopen : s.rxInEnded = false) (hnone : s.rxIn.any RxEvent.ending = false) :
      Effect s (.offer e) { s with rxIn := s.rxIn ++ [e] }
  | answer (r : TxAnswer) : Effect s (.answer r) { s with txAnswers := s.txAnswers ++ [r] }

section

variable {s t : State} {i : Instr} {x : Action}

/-! ### The operations -/

/-- What a TX operation does is what its rule does in IDLE, or a rejection. -/
theorem opEffect_of_tx {op : State → Result} (hi : i ∈ txOperations) (hexec : exec i s = acceptTx s op)
    (hop : s.phaseTx = .idle → op (s.setOpErr .accepted) = .next t → OpEffect s i t) (h : exec i s = .next t) :
    OpEffect s i t := by
  rw [hexec] at h
  rcases hphase : s.phaseTx with _ | _ | _
  · exact hop hphase (by rwa [acceptTx_idle hphase] at h)
  · obtain rfl := Host.Outcome.next.inj ((acceptTx_send hphase op).symm.trans h)
    exact .txBusy hi hphase
  · obtain rfl := Host.Outcome.next.inj ((acceptTx_failed hphase op).symm.trans h)
    exact .txFailed hi hphase

/-- What an RX operation does is what its rule does in IDLE, or a rejection. -/
theorem opEffect_of_rx {op : State → Result} (hi : i ∈ rxOperations) (hexec : exec i s = acceptRx s op)
    (hop : s.phaseRx = .idle → op (s.setOpErr .accepted) = .next t → OpEffect s i t) (h : exec i s = .next t) :
    OpEffect s i t := by
  rw [hexec] at h
  rcases hphase : s.phaseRx with _ | _ | _
  · exact hop hphase (by rwa [acceptRx_idle hphase] at h)
  · obtain rfl := Host.Outcome.next.inj ((acceptRx_recv hphase op).symm.trans h)
    exact .rxBusy hi hphase
  · obtain rfl := Host.Outcome.next.inj ((acceptRx_failed hphase op).symm.trans h)
    exact .rxFailed hi hphase

theorem opEffect_encode (h : exec .encode s = .next t) : OpEffect s .encode t := by
  refine opEffect_of_tx (by decide) rfl (fun hidle h => ?_) h
  rcases Nat.lt_or_ge 253 (plen s) with hp | hp
  · obtain rfl := Host.Outcome.next.inj ((encodeOp_tooLong (s := s.setOpErr .accepted) hp).symm.trans h)
    exact .encodeTooLong hidle hp
  · obtain rfl := Host.Outcome.next.inj ((encodeOp_ok (s := s.setOpErr .accepted) hp).symm.trans h)
    exact .encode hidle hp

theorem opEffect_checksum (h : exec .checksum s = .next t) : OpEffect s .checksum t := by
  refine opEffect_of_tx (by decide) rfl (fun hidle h => ?_) h
  rcases Nat.lt_or_ge 253 (plen s) with hp | hp
  · obtain rfl := Host.Outcome.next.inj ((checksumOp_tooLong (s := s.setOpErr .accepted) hp).symm.trans h)
    exact .checksumTooLong hidle hp
  · obtain rfl := Host.Outcome.next.inj ((checksumOp_ok (s := s.setOpErr .accepted) hp).symm.trans h)
    exact .checksum hidle hp

theorem opEffect_transmit (h : exec .transmit s = .next t) : OpEffect s .transmit t := by
  refine opEffect_of_tx (by decide) rfl (fun hidle _ => ?_) h
  by_cases hflen : s.txFlen = 0#9
  · obtain rfl := Host.Outcome.next.inj ((exec_transmit_of_no_frame hidle hflen).symm.trans h)
    exact .transmitNothing hidle hflen
  · obtain rfl := Host.Outcome.next.inj ((exec_transmit_of_frame hidle hflen).symm.trans h)
    exact .transmit hidle hflen

theorem opEffect_receive (h : exec .receive s = .next t) : OpEffect s .receive t := by
  refine opEffect_of_rx (by decide) rfl (fun hidle h => ?_) h
  obtain rfl := Host.Outcome.next.inj h
  exact .receive hidle

theorem opEffect_decode (h : exec .decode s = .next t) : OpEffect s .decode t := by
  refine opEffect_of_rx (by decide) rfl (fun hidle h => ?_) h
  obtain ⟨hn, rfl⟩ := decodeOp_next h
  exact .decode hidle hn

/-- A rejected TX operation (43_control.md R87). -/
theorem exec_tx_of_send (hi : i ∈ txOperations) (hsend : s.phaseTx = .send) :
    exec i s = .next (s.setOpErr .engineBusy) :=
  (dispatchWord_encode i s).symm.trans (dispatchWord_tx_of_send hi hsend)

theorem exec_tx_of_failed (hi : i ∈ txOperations) (hfailed : s.phaseTx = .failed) :
    exec i s = .next (s.setOpErr .engineFailed) :=
  (dispatchWord_encode i s).symm.trans (dispatchWord_tx_of_failed hi hfailed)

/-- A rejected RX operation (43_control.md R87). -/
theorem exec_rx_of_recv (hi : i ∈ rxOperations) (hrecv : s.phaseRx = .recv) :
    exec i s = .next (s.setOpErr .engineBusy) :=
  (dispatchWord_encode i s).symm.trans (dispatchWord_rx_of_recv hi hrecv)

theorem exec_rx_of_failed (hi : i ∈ rxOperations) (hfailed : s.phaseRx = .failed) :
    exec i s = .next (s.setOpErr .engineFailed) :=
  (dispatchWord_encode i s).symm.trans (dispatchWord_rx_of_failed hi hfailed)

theorem exec_of_opEffect (h : OpEffect s i t) : exec i s = .next t := by
  cases h with
  | nop => exact exec_nop s
  | reset => exact exec_reset_eq_resetRegisters s
  | txBusy hi hsend => exact exec_tx_of_send hi hsend
  | txFailed hi hfailed => exact exec_tx_of_failed hi hfailed
  | rxBusy hi hrecv => exact exec_rx_of_recv hi hrecv
  | rxFailed hi hfailed => exact exec_rx_of_failed hi hfailed
  | encode hidle hp => exact exec_encode_of_le hidle hp
  | encodeTooLong hidle hp => exact exec_encode_of_gt hidle hp
  | checksum hidle hp => exact exec_checksum_of_le hidle hp
  | checksumTooLong hidle hp => exact exec_checksum_of_gt hidle hp
  | transmit hidle hflen => exact exec_transmit_of_frame hidle hflen
  | transmitNothing hidle hflen => exact exec_transmit_of_no_frame hidle hflen
  | receive hidle => exact exec_receive_of_idle hidle
  | decode hidle hn => exact exec_decode_of_le hidle hn

/-- `OpEffect` is what `exec` does. -/
theorem exec_eq_next_iff : exec i s = .next t ↔ OpEffect s i t := by
  refine ⟨fun h => ?_, exec_of_opEffect⟩
  cases i with
  | nop => exact Host.Outcome.next.inj h ▸ .nop
  | encode => exact opEffect_encode h
  | transmit => exact opEffect_transmit h
  | checksum => exact opEffect_checksum h
  | receive => exact opEffect_receive h
  | decode => exact opEffect_decode h
  | reset => exact Host.Outcome.next.inj ((exec_reset_eq_resetRegisters s).symm.trans h) ▸ .reset

/-! ### The actions -/

theorem effect_hostWrite {a : Addr} {v : Word} (h : memWrite a v s = .next t) : Effect s (.hostWrite a v) t := by
  by_cases ha : a = 0x000#12
  · subst ha
    rcases dispatchWord_cases h with rfl | ⟨i, hi, h⟩
    · exact .illegalWord v
    · exact eq_encode_of_decode hi ▸ .operation (exec_eq_next_iff.mp h)
  · rcases memWrite_cases ha h with
      rfl | ⟨-, rfl⟩ | ⟨-, rfl⟩ | ⟨-, rfl⟩ | ⟨rfl, hidle, rfl⟩ | ⟨i, hi, hlt, rfl⟩ | ⟨i, hi, hlt, hidle, rfl⟩
    · exact .writeOperand a v t.txCmd t.txCtrl t.txPlen
    · exact .writeOperand a v (lowByte v) s.txCtrl s.txPlen
    · exact .writeOperand a v s.txCmd (lowByte v) s.txPlen
    · exact .writeOperand a v s.txCmd s.txCtrl (lowByte v)
    · exact .writeRxNbytes v hidle
    · exact .writeTxParam v hi hlt
    · exact .writeRxFrame v hi hlt hidle

theorem effect_txStep (h : txStep s = .next t) : Effect s .txStep t := by
  rcases txStep_cases h with ⟨hhold, rfl⟩ | ⟨r, as, hsend, hanswer, hroom, ⟨rfl, rfl⟩ | ⟨rfl, rfl⟩⟩
  · exact .txHold hhold
  · rcases txAccepted_cases (txf s s.txSent.toNat) { s with txAnswers := as } with ⟨hmore, e⟩ | ⟨hlast, e⟩ <;> rw [e]
    · exact .txByte hsend hanswer hroom hmore
    · exact .txLast hsend hanswer hroom hlast
  · exact .txError hsend hanswer

theorem effect_rxStep (h : rxStep s = .next t) : Effect s .rxStep t := by
  rcases rxStep_cases h with
    ⟨hhold, rfl⟩ | ⟨b, es, hrecv, hopen, hin, hroom, rfl⟩ | ⟨e, es, hrecv, hopen, hin, hend, rfl⟩
  · exact .rxHold hhold
  · rcases rxFinish_cases (rxStored b { s with rxIn := es }) with ⟨hmore, e⟩ | ⟨hlast, e⟩ <;> rw [e]
    · exact .rxByte hrecv hopen hin hroom hmore
    · exact .rxLast hrecv hopen hin hroom hlast
  · exact .rxEnd hrecv hopen hin hend

theorem effect_of_perform (h : perform x s = .next t) : Effect s x t := by
  cases x with
  | hostRead a => exact Host.Outcome.next.inj h ▸ .hostRead a
  | hostWrite a v => exact effect_hostWrite h
  | txStep => exact effect_txStep h
  | rxStep => exact effect_rxStep h
  | offer e =>
    obtain rfl := Host.Outcome.next.inj h
    rcases offerEvent_cases e s with heq | ⟨hopen, hnone, heq⟩ <;> rw [heq]
    · exact .offerLost e
    · exact .offer e hopen hnone
  | answer r => exact Host.Outcome.next.inj h ▸ .answer r

/-- What a step can do: the agenda is empty and nothing happens, or the agent named first acts. -/
theorem step_effect (h : step s = .next t) :
    (s.agenda = [] ∧ t = s) ∨ ∃ x rest, s.agenda = x :: rest ∧ Effect { s with agenda := rest } x t :=
  (step_cases h).imp_right fun ⟨x, rest, hagenda, hx⟩ => ⟨x, rest, hagenda, effect_of_perform hx⟩

end

end Sys2Proof.Machine

/-! The legality of a state (10_state.md section 1 and section 3): each side, the memory and the input channel by
themselves, and what every action makes of each. -/

namespace Sys2Proof.Machine

section

variable {s t : State} {i : Instr} {x : Action}

/-! ### The transmit side -/

theorem LegalTx.of_eq (h : LegalTx s) (hflen : t.txFlen = s.txFlen) (hsent : t.txSent = s.txSent)
    (hphase : t.phaseTx = s.phaseTx) (hstatus : t.txStatus = s.txStatus) : LegalTx t where
  flen := hflen ▸ h.flen
  sent := hsent ▸ h.sent
  running := by rw [hphase, hsent, hflen]; exact h.running
  in_progress := by rw [hphase, hstatus]; exact h.in_progress
  failure := by rw [hphase, hstatus]; exact h.failure
  codes := hstatus ▸ h.codes

theorem LegalTx.flen_le (h : LegalTx s) : s.txFlen.toNat ≤ 259 := by
  have := h.flen; omega

/-- A running transmission has room for the byte it offers. -/
theorem LegalTx.sent_lt (h : LegalTx s) (hsend : s.phaseTx = .send) : s.txSent.toNat < s.txFlen.toNat :=
  h.running (by rw [hsend]; decide)

/-- With the engine IDLE only the counts and the code are to be in range. -/
theorem legalTx_of_idle (hidle : s.phaseTx = .idle)
    (hflen : s.txFlen.toNat = 0 ∨ (6 ≤ s.txFlen.toNat ∧ s.txFlen.toNat ≤ 259)) (hsent : s.txSent.toNat ≤ 259)
    (hstatus : s.txStatus ∈ [StatusCode.ok, .paramsTooLong, .none]) : LegalTx s := by
  simp only [List.mem_cons, List.not_mem_nil, or_false] at hstatus
  refine ⟨hflen, hsent, fun h => absurd hidle h, ?_, ?_, ?_⟩ <;> rcases hstatus with h | h | h <;> simp [h, hidle]

theorem legalTx_encoded (hl : LegalTx s) (hidle : s.phaseTx = .idle) (hp : plen s ≤ 253) : LegalTx (encoded s) :=
  legalTx_of_idle hidle (by rw [toNat_txFlen_encoded hp]; omega) hl.sent (by simp [encoded])

theorem OpEffect.legalTx (h : OpEffect s i t) (hl : LegalTx s) : LegalTx t := by
  cases h with
  | reset => exact legalTx_of_idle rfl (.inl rfl) (by simp [State.reset]) (by simp [State.reset])
  | encode hidle hp => exact legalTx_encoded hl hidle hp
  | encodeTooLong hidle hp => exact legalTx_of_idle hidle (.inl rfl) hl.sent (by simp)
  | checksum hidle hp => exact legalTx_of_idle hidle hl.flen hl.sent (by simp)
  | checksumTooLong hidle hp => exact legalTx_of_idle hidle hl.flen hl.sent (by simp)
  | transmitNothing hidle hflen => exact legalTx_of_idle hidle hl.flen (by simp) (by simp)
  | transmit hidle hflen =>
    have hpos : s.txFlen.toNat ≠ 0 := mt (BitVec.eq_of_toNat_eq (y := 0#9)) hflen
    exact ⟨hl.flen, by simp, fun _ => Nat.pos_of_ne_zero hpos, by simp, by simp, by simp⟩
  | decode => exact hl.of_eq (publish_txFlen _ _) (publish_txSent _ _) (publish_phaseTx _ _) (publish_txStatus _ _)
  | _ => exact hl.of_eq rfl rfl rfl rfl

theorem Effect.legalTx (h : Effect s x t) (hl : LegalTx s) : LegalTx t := by
  cases h with
  | operation h => exact h.legalTx hl
  | @txByte as hsend hanswer hroom hmore =>
    have hlt := hl.sent_lt hsend
    have hsucc : (s.txSent + 1#9).toNat = s.txSent.toNat + 1 := count_succ hroom
    have hne : s.txSent.toNat + 1 ≠ s.txFlen.toNat := fun e => hmore (BitVec.eq_of_toNat_eq (hsucc.trans e))
    exact ⟨hl.flen, by simp only [hsucc]; omega, fun _ => by simp only [hsucc]; omega, hl.in_progress, hl.failure,
      hl.codes⟩
  | txLast hsend hanswer hroom hlast =>
    exact legalTx_of_idle rfl hl.flen (by simp only [count_succ hroom]; omega) (by simp)
  | txError hsend => exact ⟨hl.flen, hl.sent, fun _ => hl.sent_lt hsend, by simp, by simp, by simp⟩
  | rxLast =>
    exact hl.of_eq (publish_txFlen _ _) (publish_txSent _ _) (publish_phaseTx _ _) (publish_txStatus _ _)
  | _ => exact hl.of_eq rfl rfl rfl rfl

/-! ### The receive side -/

/-- `t` has the registers and the engine of the receive side of `s`; the input channel may differ. -/
def RxRegsKept (s t : State) : Prop := withRxSide t { s with rxIn := t.rxIn, rxInEnded := t.rxInEnded } = t

theorem LegalRx.of_kept (h : LegalRx s) (hkept : RxRegsKept s t) (hlength : s.phaseRx ≠ .idle → rxf t 2 = rxf s 2) :
    LegalRx t := by
  have hside : LegalRx (withRxSide t { s with rxIn := t.rxIn, rxInEnded := t.rxInEnded }) :=
    { nbytes := h.nbytes, count := h.count, need := h.need, in_progress := h.in_progress, failure := h.failure,
      failed_nbytes := h.failed_nbytes, codes := h.codes, valid := h.valid, hidden := h.hidden, message := h.message,
      mismatch := h.mismatch, checksums := h.checksums
      running := fun hphase =>
        have ⟨hlt, hbyte⟩ := h.running hphase
        ⟨hlt, fun hcount => (hbyte hcount).trans (by rw [← hlength hphase]; rfl)⟩ }
  rwa [hkept] at hside

/-- A running reception has room for the byte it waits for. -/
theorem LegalRx.count_lt (h : LegalRx s) (hrecv : s.phaseRx = .recv) : s.rxCount.toNat ≤ 258 := by
  have ⟨hlt, _⟩ := h.running (by rw [hrecv]; decide)
  have ⟨hfew, hmany⟩ := h.need
  by_cases hcount : s.rxCount.toNat < 3
  · omega
  · have := hmany (by omega); omega

/-- The range of `rx_need` (10_state.md R34). -/
def NeedInRange (count need : Count) : Prop :=
  (count.toNat < 3 → need = 3#9) ∧ (3 ≤ count.toNat → 4 ≤ need.toNat ∧ need.toNat ≤ 259)

/-- A byte taken keeps `rx_need` in range (42_transport_framing.md R81). -/
theorem needInRange_succ {count need : Count} (h : NeedInRange count need) (hroom : count.toNat ≤ 258) (b : Byte) :
    NeedInRange (count + 1#9) (needAfter b (count + 1#9) need) := by
  have ⟨hfew, hmany⟩ := h
  have hb := b.isLt
  unfold NeedInRange
  rw [count_succ hroom]
  rcases needAfter_cases hroom b need with ⟨htwo, e⟩ | ⟨htwo, e⟩
  · exact ⟨fun _ => by omega, fun _ => by omega⟩
  · rw [e]
    exact ⟨fun _ => hfew (by omega), fun _ => hmany (by omega)⟩

/-- Once a decode is published and the engine IDLE, only the counts are to be in range: the decoder answers no Message
with a length below 2 and no mismatch of equal checksums. -/
theorem legalRx_of_published {bs : List Byte} (hp : Published (decodeFrame bs) s) (hidle : s.phaseRx = .idle)
    (hnbytes : s.rxNbytes.toNat ≤ 259) (hcount : s.rxCount.toNat ≤ 259) (hneed : NeedInRange s.rxCount s.rxNeed) :
    LegalRx s := by
  have hfailed : s.phaseRx = .failed → s.rxNbytes = s.rxCount := fun h => by cases hidle.symm.trans h
  have hrunning : s.phaseRx ≠ .idle → s.rxCount.toNat < s.rxNeed.toNat ∧
      (3 ≤ s.rxCount.toNat → s.rxNeed.toNat = (rxf s 2).toNat + 4) := fun h => absurd hidle h
  rcases hq : decodeFrame bs with f | m <;> rw [hq] at hp
  · cases f with
    | integrityMismatch e c =>
      obtain ⟨-, -, -, hne⟩ := decodeFrame_eq_integrityMismatch_iff.mp hq
      obtain ⟨⟨hlen, hcmd, hctrl, hplen, hvalid⟩, hexp, hrcv, hstatus⟩ := hp
      refine ⟨hnbytes, hcount, hneed, hrunning, ?_, ?_, hfailed, ?_, ?_, ?_, ?_, ?_, ?_⟩ <;> simp [*]
    | _ =>
      obtain ⟨⟨hlen, hcmd, hctrl, hplen, hvalid⟩, hexp, hrcv, hstatus⟩ := hp
      refine ⟨hnbytes, hcount, hneed, hrunning, ?_, ?_, hfailed, ?_, ?_, ?_, ?_, ?_, ?_⟩ <;> simp [*]
  · obtain ⟨hf, -, rfl⟩ := decodeFrame_eq_ok_iff.mp hq
    have htwo : 2 ≤ (messageOf bs).length.toNat := hf.two_le
    obtain ⟨hlen, hcmd, hctrl, hplen, hexp, hrcv, hvalid, hstatus⟩ := hp
    have hlength : (messageOf bs).length.toNat = ((messageOf bs).length - 2#8).toNat + 2 := by bv_omega
    have hmessage : s.rxLen.toNat = s.rxPlen.toNat + 2 ∧ s.rxCsumExp = s.rxCsumRcv :=
      ⟨by rw [hlen, hplen]; exact hlength, hexp.trans hrcv.symm⟩
    refine ⟨hnbytes, hcount, hneed, hrunning, ?_, ?_, hfailed, ?_, ?_, ?_, fun _ => hmessage, ?_, ?_⟩ <;>
      simp [hidle, hvalid, hstatus]

theorem legalRx_reset : LegalRx State.reset := by
  refine ⟨?_, ?_, ?_, ?_, ?_, ?_, ?_, ?_, ?_, ?_, ?_, ?_, ?_⟩ <;> decide

theorem legalRx_receiveStarted (hl : LegalRx s) : LegalRx (receiveStarted s) := by
  refine ⟨hl.nbytes, ?_, ?_, ?_, ?_, ?_, ?_, ?_, ?_, ?_, ?_, ?_, ?_⟩ <;> simp [receiveStarted]

theorem OpEffect.legalRx (h : OpEffect s i t) (hl : LegalRx s) : LegalRx t := by
  cases h with
  | reset => exact legalRx_reset.of_kept rfl fun h => absurd rfl h
  | encode => exact hl.of_kept rfl fun _ => read_encoded_outside (.inr (by rw [Config.rxFrameBase]; omega))
  | receive => exact legalRx_receiveStarted hl
  | decode hidle hn =>
    exact legalRx_of_published (published_publish _ _) ((publish_phaseRx _ _).trans hidle) (by simpa using hn)
      (by simpa using hl.count) (by simpa [NeedInRange] using hl.need)
  | _ => exact hl.of_kept rfl fun _ => rfl

/-- A byte that does not end the reception (42_transport_framing.md R81). -/
theorem legalRx_rxStored {b : Byte} (hl : LegalRx s) (hrecv : s.phaseRx = .recv) (hroom : s.rxCount.toNat ≤ 258)
    (hmore : s.rxCount + 1#9 ≠ needAfter b (s.rxCount + 1#9) s.rxNeed) : LegalRx (rxStored b s) := by
  have hsucc : (s.rxCount + 1#9).toNat = s.rxCount.toNat + 1 := count_succ hroom
  have ⟨hlt, hbyte⟩ := hl.running (by rw [hrecv]; decide)
  have hne : ¬(s.rxCount + 1#9).toNat = (needAfter b (s.rxCount + 1#9) s.rxNeed).toNat :=
    fun e => hmore (BitVec.eq_of_toNat_eq e)
  have hrunning : (rxStored b s).rxCount.toNat < (rxStored b s).rxNeed.toNat ∧
      (3 ≤ (rxStored b s).rxCount.toNat → (rxStored b s).rxNeed.toNat = (rxf (rxStored b s) 2).toNat + 4) := by
    rw [rxStored_rxCount, rxStored_rxNeed, rxf, rxStored_mem, read_write]
    rcases needAfter_cases hroom b s.rxNeed with ⟨htwo, e⟩ | ⟨htwo, e⟩
    · rw [htwo, if_pos rfl]
      exact ⟨by omega, fun _ => e⟩
    · rw [e] at hne ⊢
      rw [if_neg (by omega)]
      exact ⟨by omega, fun _ => hbyte (by omega)⟩
  exact ⟨hl.nbytes, by rw [rxStored_rxCount]; omega, needInRange_succ hl.need hroom b, fun _ => hrunning,
    hl.in_progress, hl.failure, fun h => absurd (hrecv.symm.trans h) (by decide), hl.codes, hl.valid, hl.hidden,
    hl.message, hl.mismatch, hl.checksums⟩

/-- A channel failure: no Message has been exposed since RECEIVE (42_transport_framing.md R82). -/
theorem legalRx_rxEnd (hl : LegalRx s) (hrecv : s.phaseRx = .recv) :
    LegalRx { s with rxIn := [], rxInEnded := true, rxNbytes := s.rxCount, phaseRx := .failed,
                     rxStatus := .transportFailure } := by
  have hstatus : s.rxStatus = .inProgress := hl.in_progress.mpr hrecv
  have hvalid : s.rxValid = false := by simpa [hstatus] using hl.valid
  have hchecksums := hl.checksums (by simp [hstatus]) (by simp [hstatus])
  refine ⟨hl.count, hl.count, hl.need, fun _ => hl.running (by simp [hrecv]), ?_, ?_, fun _ => rfl, ?_, ?_, hl.hidden,
    hl.message, ?_, fun _ _ => hchecksums⟩ <;> simp [hvalid]

theorem Effect.legalRx (h : Effect s x t) (hl : LegalRx s) : LegalRx t := by
  cases h with
  | operation h => exact h.legalRx hl
  | writeRxNbytes v hidle =>
    exact ⟨by simp only [toNat_clampCount]; omega, hl.count, hl.need, hl.running, hl.in_progress, hl.failure,
      fun h => absurd (hidle.symm.trans h) (by decide), hl.codes, hl.valid, hl.hidden, hl.message, hl.mismatch,
      hl.checksums⟩
  | writeTxParam v ha hi =>
    exact hl.of_kept rfl fun _ => read_write_other _ _ (by rw [Config.rxFrameBase]; omega)
  | writeRxFrame v ha hi hidle => exact hl.of_kept rfl fun h => absurd hidle h
  | rxByte hrecv hopen hin hroom hmore =>
    exact legalRx_rxStored (hl.of_kept rfl fun _ => rfl) hrecv hroom hmore
  | rxLast hrecv hopen hin hroom hlast =>
    have hcount : (s.rxCount + 1#9).toNat ≤ 259 := by rw [count_succ hroom]; omega
    exact legalRx_of_published (published_publish _ _) (publish_phaseRx _ _) (by simpa using hcount)
      (by simpa using hcount) (by simpa using needInRange_succ hl.need hroom _)
  | rxEnd hrecv => exact legalRx_rxEnd hl hrecv
  | _ => exact hl.of_kept rfl fun _ => rfl

/-! ### The memory -/

/-- The form of the memory (log 2): canonical, with buffer locations only. -/
def MemLegal (m : Memory) : Prop := Memory.wf m ∧ ∀ c ∈ m, isBufferAddr c.1 = true

theorem MemLegal.write {m : Memory} (h : MemLegal m) {a : Nat} (ha : isBufferAddr a = true) (b : Byte) :
    MemLegal (Memory.write m a b) :=
  ⟨write_wf h.1 a b, fun c hc => (mem_write hc).elim (fun e => e ▸ ha) (h.2 c)⟩

theorem MemLegal.encoded (h : MemLegal s.mem) (hp : plen s ≤ 253) : MemLegal (encoded s).mem := by
  refine ⟨writeBytes_wf _ h.1 _, fun c hc => ?_⟩
  rcases mem_writeBytes _ hc with ⟨hlo, hhi⟩ | hc
  · rw [length_txFrameBytes] at hhi
    obtain ⟨i, hi⟩ := Nat.exists_eq_add_of_le hlo
    exact hi ▸ isBufferAddr_txFrame (by omega)
  · exact h.2 c hc

theorem OpEffect.memLegal (h : OpEffect s i t) (hm : MemLegal s.mem) : MemLegal t.mem := by
  cases h with
  | encode hidle hp => exact hm.encoded hp
  | decode => rwa [publish_mem]
  | _ => exact hm

theorem Effect.memLegal (h : Effect s x t) (hm : MemLegal s.mem) : MemLegal t.mem := by
  cases h with
  | operation h => exact h.memLegal hm
  | writeTxParam v ha hi => exact hm.write (ha ▸ isBufferAddr_txParam hi) _
  | writeRxFrame v ha hi => exact hm.write (ha ▸ isBufferAddr_rxFrame hi) _
  | rxByte hrecv hopen hin hroom => exact hm.write (isBufferAddr_rxFrame (by simp only; omega)) _
  | rxLast hrecv hopen hin hroom =>
    rw [publish_mem]
    exact hm.write (isBufferAddr_rxFrame (by simp only; omega)) _
  | _ => exact hm

/-! ### The input channel -/

theorem channelClosedLast_append (e : RxEvent) : ∀ {es : List RxEvent}, es.any RxEvent.ending = false →
    channelClosedLast (es ++ [e]) = true
  | [], _ => by simp [channelClosedLast]
  | d :: es, h => by
    simp only [List.any_cons, Bool.or_eq_false_iff] at h
    simp [channelClosedLast, h.1, channelClosedLast_append e h.2]

theorem channelClosedLast_tail {e : RxEvent} {es : List RxEvent} (h : channelClosedLast (e :: es) = true) :
    channelClosedLast es = true := by
  simp only [channelClosedLast, Bool.and_eq_true] at h
  exact h.2

/-- Nothing follows `Closed` or `Error`, and nothing is left once one was taken (20_memory.md R47; log 6). -/
def ChannelLegal (s : State) : Prop := channelClosedLast s.rxIn = true ∧ (s.rxInEnded = true → s.rxIn = [])

theorem OpEffect.channelLegal (h : OpEffect s i t) (hc : ChannelLegal s) : ChannelLegal t := by
  cases h with
  | decode => simpa [ChannelLegal] using hc
  | _ => exact hc

theorem Effect.channelLegal (h : Effect s x t) (hc : ChannelLegal s) : ChannelLegal t := by
  have ⟨hlast, hended⟩ := hc
  cases h with
  | operation h => exact h.channelLegal hc
  | rxByte hrecv hopen hin =>
    exact ⟨channelClosedLast_tail (hin ▸ hlast), fun h => by cases hopen.symm.trans h⟩
  | rxLast hrecv hopen hin =>
    have htail := channelClosedLast_tail (hin ▸ hlast)
    simpa [ChannelLegal, hopen] using htail
  | rxEnd => exact ⟨rfl, fun _ => rfl⟩
  | offer e hopen hnone => exact ⟨channelClosedLast_append e hnone, fun h => by cases hopen.symm.trans h⟩
  | _ => exact hc

/-! ### The whole state -/

theorem Effect.legal (h : Effect s x t) (hl : s.Legal) : t.Legal :=
  have ⟨hwf, hmapped⟩ := h.memLegal ⟨hl.mem_wf, hl.mem_mapped⟩
  ⟨hwf, hmapped, h.legalTx hl.tx, h.legalRx hl.rx, h.channelLegal hl.channel⟩

/-- What is still to be done is no part of legality (log 3). -/
theorem State.Legal.scheduled (hl : s.Legal) (xs : List Action) : (s.scheduled xs).Legal :=
  ⟨hl.mem_wf, hl.mem_mapped, hl.tx.of_eq rfl rfl rfl rfl, hl.rx.of_kept rfl fun _ => rfl, hl.channel⟩

theorem step_legal (hl : s.Legal) (h : step s = .next t) : t.Legal := by
  rcases step_effect h with ⟨-, rfl⟩ | ⟨x, rest, -, he⟩
  · exact hl
  · exact he.legal (hl.scheduled rest)

end

/-- Settles O3: every outcome of an action keeps each part of legality. -/
theorem everyStepKeepsTheStateLegal : Obligations.EveryStepKeepsTheStateLegal :=
  fun _ _ hl h => step_legal hl h

end Sys2Proof.Machine

/-! The operation words, one for each operation, and the control byte (30_encoding.md R58, R61 to R63). -/

namespace Sys2Proof

/-- A legal word is the word of one of the seven operations (R62, R63). -/
theorem exists_decode_of_wellFormedWord {v : Word} (h : wellFormedWord v = true) : ∃ i, decode v = .ok i := by
  simp only [wellFormedWord, mbzClear, opcodeAssigned, Bool.and_eq_true, beq_iff_eq, List.contains_iff_mem] at h
  obtain ⟨hmbz, hop⟩ := h
  rw [show v.toNat % 16 = v.toNat by omega] at hop
  have hword : ∀ i : Instr, v.toNat = (encode i).toNat → ∃ i, decode v = .ok i := fun i e =>
    ⟨i, BitVec.eq_of_toNat_eq e ▸ decode_encode i⟩
  simp only [List.mem_cons, List.not_mem_nil, or_false] at hop
  rcases hop with e | e | e | e | e | e | e
  · exact hword .nop e
  · exact hword .encode e
  · exact hword .transmit e
  · exact hword .checksum e
  · exact hword .receive e
  · exact hword .decode e
  · exact hword .reset e

theorem wellFormedWord_encode (i : Instr) : wellFormedWord (encode i) = true := by
  cases i <;> rfl

/-- Settles O8: each word is the encoding of its operation. -/
theorem operationWordsDecode : Obligations.OperationWordsDecode :=
  ⟨decode_encode .nop, decode_encode .encode, decode_encode .transmit, decode_encode .checksum, decode_encode .receive,
    decode_encode .decode, decode_encode .reset⟩

/-- Settles O9: `decode_encode` and `eq_encode_of_decode` one way and the other, and the legal words one by one. -/
theorem operationWordsAreUnambiguous : Obligations.OperationWordsAreUnambiguous := by
  refine ⟨decode_encode, fun _ _ h => (eq_encode_of_decode h).symm, fun v => ⟨?_, exists_decode_of_wellFormedWord⟩⟩
  rintro ⟨i, h⟩
  exact eq_encode_of_decode h ▸ wellFormedWord_encode i

namespace Machine

/-- Settles O14: the control byte of each of the four pairs of flags. -/
theorem controlByteFields : Obligations.ControlByteFields := by
  intro rw queued
  cases rw <;> cases queued <;> decide

/-- Settles O7: a host write to OP dispatches its word, and a word that decodes runs its operation. -/
theorem stepRunsTheDecodedOperation : Obligations.StepRunsTheDecodedOperation := by
  intro s v i rest hagenda hdecode _
  rw [step_hostWrite_op hagenda, dispatchWord, hdecode]

end Machine

end Sys2Proof

/-! The steps of the engines and of the environment, each by what it finds (42_transport_framing.md R78, R81, R82,
20_memory.md R47, R48), and the runs of an engine that finds all it needs. -/

namespace Sys2Proof.Machine

section

variable {s : State} {as : List TxAnswer} {r : TxAnswer} {b : Byte} {e : RxEvent} {es : List RxEvent}

/-! ### The transmit engine -/

/-- The engine takes the answer to the byte it offers (R78). -/
theorem txStep_of_answer (hsend : s.phaseTx = .send) (hanswer : s.txAnswers = r :: as) :
    txStep s = txTake r { s with txAnswers := as } := by
  simp only [txStep, hsend, hanswer]

theorem txStep_of_accept (hsend : s.phaseTx = .send) (hanswer : s.txAnswers = .accept :: as)
    (hroom : s.txSent.toNat ≤ 258) :
    txStep s = .next (txAccepted (txf s s.txSent.toNat) { s with txAnswers := as }) :=
  (txStep_of_answer hsend hanswer).trans (if_neg (by rw [Config.maxFrame]; simp only; omega))

theorem txStep_of_error (hsend : s.phaseTx = .send) (hanswer : s.txAnswers = .error :: as)
    (hroom : s.txSent.toNat ≤ 258) : txStep s = .next (txErrored { s with txAnswers := as }) :=
  (txStep_of_answer hsend hanswer).trans (if_neg (by rw [Config.maxFrame]; simp only; omega))

theorem txStep_of_hold (h : s.phaseTx ≠ .send ∨ s.txAnswers = []) : txStep s = .next s := by
  unfold txStep
  split
  · next hsend hanswer => simp [hsend, hanswer] at h
  all_goals rfl

theorem txStep_of_no_room (hsend : s.phaseTx = .send) (hanswer : s.txAnswers = r :: as)
    (hroom : 259 ≤ s.txSent.toNat) : txStep s = .fault .txFrameIndex :=
  (txStep_of_answer hsend hanswer).trans (if_pos hroom)

/-! ### The receive engine -/

/-- The engine takes the first event of an open channel (R81, R82). -/
theorem rxStep_of_event (hrecv : s.phaseRx = .recv) (hopen : s.rxInEnded = false) (hin : s.rxIn = e :: es) :
    rxStep s = rxTake e es s := by
  simp only [rxStep, hrecv, hopen, hin]

theorem rxStep_of_byte (hrecv : s.phaseRx = .recv) (hopen : s.rxInEnded = false) (hin : s.rxIn = .byte b :: es)
    (hroom : s.rxCount.toNat ≤ 258) : rxStep s = .next (rxFinish (rxStored b { s with rxIn := es })) :=
  (rxStep_of_event hrecv hopen hin).trans (if_neg (by rw [Config.maxFrame]; simp only; omega))

theorem rxStep_of_end (hrecv : s.phaseRx = .recv) (hopen : s.rxInEnded = false) (hin : s.rxIn = e :: es)
    (hend : e.ending = true) :
    rxStep s = .next
      { s with rxIn := [], rxInEnded := true, rxNbytes := s.rxCount, phaseRx := .failed,
               rxStatus := .transportFailure } := by
  rw [rxStep_of_event hrecv hopen hin]
  cases e with
  | byte b => cases hend
  | closed => rfl
  | error => rfl

theorem rxStep_of_hold (h : s.phaseRx ≠ .recv ∨ s.rxInEnded = true ∨ s.rxIn = []) : rxStep s = .next s := by
  unfold rxStep
  split
  · next hrecv hopen hin => simp [hrecv, hopen, hin] at h
  all_goals rfl

theorem rxStep_of_no_room (hrecv : s.phaseRx = .recv) (hopen : s.rxInEnded = false) (hin : s.rxIn = .byte b :: es)
    (hroom : 259 ≤ s.rxCount.toNat) : rxStep s = .fault .rxFrameIndex :=
  (rxStep_of_event hrecv hopen hin).trans (if_pos hroom)

/-- DECODE of more bytes than RX_FRAME has (log 8). -/
theorem exec_decode_of_gt (hidle : s.phaseRx = .idle) (hn : 259 < s.rxNbytes.toNat) :
    exec .decode s = .fault .rxFrameIndex :=
  (acceptRx_idle hidle decodeOp).trans (if_pos hn)

/-! ### The environment -/

theorem offerEvent_of_open (hopen : s.rxInEnded = false) (hnone : s.rxIn.any RxEvent.ending = false) :
    offerEvent e s = { s with rxIn := s.rxIn ++ [e] } := if_neg (by simp [hopen, hnone])

theorem offerEvent_of_ended (h : s.rxInEnded = true ∨ s.rxIn.any RxEvent.ending = true) : offerEvent e s = s :=
  if_pos (by rwa [Bool.or_eq_true])

end

/-- Settles O27: the answer waiting decides, and an accepted byte is the last or is not. -/
theorem transmitEngineStep : Obligations.TransmitEngineStep := by
  intro s rest hagenda
  have hstep : step s = txStep { s with agenda := rest } := step_of_agenda_cons hagenda
  refine ⟨fun as hsend hanswer hroom => ?_, fun as hsend hanswer hroom => ?_, fun h => ?_⟩ <;> rw [hstep]
  · rw [txStep_of_accept (s := { s with agenda := rest }) hsend hanswer hroom]
    exact ⟨fun hlast => congrArg _ (txAccepted_of_eq hlast), fun hmore => congrArg _ (txAccepted_of_ne hmore)⟩
  · exact txStep_of_error (s := { s with agenda := rest }) hsend hanswer hroom
  · exact txStep_of_hold h

/-- Settles O29: `Closed` and `Error` both end the channel (`rxStep_of_end`). -/
theorem receiveEngineFailureStep : Obligations.ReceiveEngineFailureStep := by
  intro s rest e es hagenda hrecv hopen hin he
  have hend : e.ending = true := by rcases he with rfl | rfl <;> rfl
  exact (step_of_agenda_cons hagenda).trans (rxStep_of_end (s := { s with agenda := rest }) hrecv hopen hin hend)

/-- Settles O30: by `txStep_of_hold` and `rxStep_of_hold`. -/
theorem enginesHoldWhenNotEnabled : Obligations.EnginesHoldWhenNotEnabled :=
  fun s rest =>
    ⟨fun hagenda h => (step_of_agenda_cons hagenda).trans (txStep_of_hold (s := { s with agenda := rest }) h),
      fun hagenda h => (step_of_agenda_cons hagenda).trans (rxStep_of_hold (s := { s with agenda := rest }) h)⟩

/-- Settles O31: DECODE and the two engines, each with an index its buffer does not have. -/
theorem indexOutsideAFrameBufferFaults : Obligations.IndexOutsideAFrameBufferFaults :=
  ⟨fun _ => exec_decode_of_gt, fun _ _ _ => txStep_of_no_room, fun _ _ _ => rxStep_of_no_room⟩

/-- Settles O32: an offer by whether the channel is to end, an answer at once. -/
theorem environmentStepsQueueInOrder : Obligations.EnvironmentStepsQueueInOrder := by
  intro s rest
  refine ⟨fun e hagenda => ?_, fun r hagenda => step_of_agenda_cons hagenda⟩
  have hstep : step s = .next (offerEvent e { s with agenda := rest }) := step_of_agenda_cons hagenda
  rw [hstep]
  exact ⟨fun hopen hnone => congrArg _ (offerEvent_of_open hopen hnone), fun h => congrArg _ (offerEvent_of_ended h)⟩

/-- Settles O34: a transmission whose every byte is accepted, run to its end. -/
theorem transmitRunsToItsEnd : Obligations.TransmitRunsToItsEnd :=
  fun _ _ _ hidle hframe hflen hanswers h => run_transmit hidle hframe hflen hanswers h

/-- Settles O36: a reception whose bytes are all there, run to its end. -/
theorem receiveRunsToItsEnd : Obligations.ReceiveRunsToItsEnd := by
  intro s t bs es hidle hopen hfull hin h
  obtain ⟨u, hrun, hrest, hend⟩ := run_receive hidle hopen hfull hin h
  exact ⟨u, hrun, hrest, hend.phase, hend.count, hend.nbytes, hend.buffer, hend.published⟩

end Sys2Proof.Machine

/-! Rules of the whole machine (10_state.md R30 to R34, 20_memory.md R47, R48, R53, 60_exceptions.md R95), read off the
outcomes of an operation and of an action. -/

namespace Sys2Proof.Machine

section

variable {s t : State} {i : Instr} {x : Action}

/-! ### Who leaves FAILED -/

theorem OpEffect.phaseTx_of_failed (h : OpEffect s i t) (hfailed : s.phaseTx = .failed) :
    t.phaseTx = .failed ∨ i = .reset := by
  cases h with
  | reset => exact .inr rfl
  | transmit hidle => cases hidle.symm.trans hfailed
  | decode => exact .inl ((publish_phaseTx _ _).trans hfailed)
  | _ => exact .inl hfailed

theorem OpEffect.phaseRx_of_failed (h : OpEffect s i t) (hfailed : s.phaseRx = .failed) :
    t.phaseRx = .failed ∨ i = .reset := by
  cases h with
  | reset => exact .inr rfl
  | receive hidle => cases hidle.symm.trans hfailed
  | decode hidle => cases hidle.symm.trans hfailed
  | _ => exact .inl hfailed

theorem Effect.phaseTx_of_failed (h : Effect s x t) (hfailed : s.phaseTx = .failed) :
    t.phaseTx = .failed ∨ x = .hostWrite 0x000#12 (encode .reset) := by
  cases h with
  | operation h => exact (h.phaseTx_of_failed hfailed).imp_right (by rintro rfl; rfl)
  | txByte hsend => cases hsend.symm.trans hfailed
  | txLast hsend => cases hsend.symm.trans hfailed
  | txError => exact .inl rfl
  | rxLast => exact .inl ((publish_phaseTx _ _).trans hfailed)
  | _ => exact .inl hfailed

theorem Effect.phaseRx_of_failed (h : Effect s x t) (hfailed : s.phaseRx = .failed) :
    t.phaseRx = .failed ∨ x = .hostWrite 0x000#12 (encode .reset) := by
  cases h with
  | operation h => exact (h.phaseRx_of_failed hfailed).imp_right (by rintro rfl; rfl)
  | rxByte hrecv => cases hrecv.symm.trans hfailed
  | rxLast hrecv => cases hrecv.symm.trans hfailed
  | rxEnd => exact .inl rfl
  | _ => exact .inl hfailed

/-! ### What changes a status -/

/-- An operation that changes TX_STATUS is RESET or an accepted TX operation (60_exceptions.md R95). -/
theorem OpEffect.txStatus_cases (h : OpEffect s i t) :
    t.txStatus = s.txStatus ∨ i = .reset ∨ (s.phaseTx = .idle ∧ i ∈ txOperations) := by
  cases h with
  | reset => exact .inr (.inl rfl)
  | encode hidle => exact .inr (.inr ⟨hidle, by decide⟩)
  | encodeTooLong hidle => exact .inr (.inr ⟨hidle, by decide⟩)
  | checksum hidle => exact .inr (.inr ⟨hidle, by decide⟩)
  | checksumTooLong hidle => exact .inr (.inr ⟨hidle, by decide⟩)
  | transmit hidle => exact .inr (.inr ⟨hidle, by decide⟩)
  | transmitNothing hidle => exact .inr (.inr ⟨hidle, by decide⟩)
  | decode => exact .inl (publish_txStatus _ _)
  | _ => exact .inl rfl

/-- An operation that changes RX_STATUS is RESET or an accepted RX operation (60_exceptions.md R95). -/
theorem OpEffect.rxStatus_cases (h : OpEffect s i t) :
    t.rxStatus = s.rxStatus ∨ i = .reset ∨ (s.phaseRx = .idle ∧ i ∈ rxOperations) := by
  cases h with
  | reset => exact .inr (.inl rfl)
  | receive hidle => exact .inr (.inr ⟨hidle, by decide⟩)
  | decode hidle => exact .inr (.inr ⟨hidle, by decide⟩)
  | _ => exact .inl rfl

/-- Besides, only the running transmit engine changes TX_STATUS (42_transport_framing.md R78). -/
theorem Effect.txStatus_cases (h : Effect s x t) :
    t.txStatus = s.txStatus ∨ s.phaseTx = .send ∨
      ∃ i, x = .hostWrite 0x000#12 (encode i) ∧ (i = .reset ∨ (s.phaseTx = .idle ∧ i ∈ txOperations)) := by
  cases h with
  | operation h => exact h.txStatus_cases.imp_right fun hi => .inr ⟨_, rfl, hi⟩
  | txLast hsend => exact .inr (.inl hsend)
  | txError hsend => exact .inr (.inl hsend)
  | rxLast => exact .inl (publish_txStatus _ _)
  | _ => exact .inl rfl

/-- Besides, only the running receive engine changes RX_STATUS (42_transport_framing.md R81, R82). -/
theorem Effect.rxStatus_cases (h : Effect s x t) :
    t.rxStatus = s.rxStatus ∨ s.phaseRx = .recv ∨
      ∃ i, x = .hostWrite 0x000#12 (encode i) ∧ (i = .reset ∨ (s.phaseRx = .idle ∧ i ∈ rxOperations)) := by
  cases h with
  | operation h => exact h.rxStatus_cases.imp_right fun hi => .inr ⟨_, rfl, hi⟩
  | rxLast hrecv => exact .inr (.inl hrecv)
  | rxEnd hrecv => exact .inr (.inl hrecv)
  | _ => exact .inl rfl

/-! ### What reaches the channels -/

/-- An operation reaches neither channel, nor the model's own lists (00_scope.md R9). -/
theorem OpEffect.channels (h : OpEffect s i t) :
    t.rxIn = s.rxIn ∧ t.rxInEnded = s.rxInEnded ∧ t.out = s.out ∧ t.txAnswers = s.txAnswers ∧
      t.agenda = s.agenda ∧ t.hostReads = s.hostReads := by
  cases h with
  | decode => simp
  | _ => exact ⟨rfl, rfl, rfl, rfl, rfl, rfl⟩

/-- Only an accepted byte reaches `out` (20_memory.md R48). -/
theorem Effect.out_cases (h : Effect s x t) :
    t.out = s.out ∨ (x = .txStep ∧ s.phaseTx = .send ∧ t.out = s.out ++ [txf s s.txSent.toNat] ∧
      ∃ as, s.txAnswers = .accept :: as) := by
  cases h with
  | operation h =>
    obtain ⟨-, -, hout, -⟩ := h.channels
    exact .inl hout
  | txByte hsend hanswer => exact .inr ⟨rfl, hsend, rfl, _, hanswer⟩
  | txLast hsend hanswer => exact .inr ⟨rfl, hsend, rfl, _, hanswer⟩
  | rxLast => exact .inl (publish_out _ _)
  | _ => exact .inl rfl

/-- Only an offer and the running receive engine reach the input channel (20_memory.md R47). -/
theorem Effect.rxIn_cases (h : Effect s x t) :
    (t.rxIn = s.rxIn ∧ t.rxInEnded = s.rxInEnded) ∨
    (s.rxInEnded = false ∧ ∃ e, x = .offer e ∧ t.rxIn = s.rxIn ++ [e]) ∨
    (s.rxInEnded = false ∧ x = .rxStep ∧ s.phaseRx = .recv ∧
      ∃ e es, s.rxIn = e :: es ∧ t.rxIn = if e.ending then [] else es) := by
  cases h with
  | operation h =>
    obtain ⟨hin, hended, -⟩ := h.channels
    exact .inl ⟨hin, hended⟩
  | rxByte hrecv hopen hin => exact .inr (.inr ⟨hopen, rfl, hrecv, _, _, hin, rfl⟩)
  | rxLast hrecv hopen hin => exact .inr (.inr ⟨hopen, rfl, hrecv, _, _, hin, publish_rxIn _ _⟩)
  | rxEnd hrecv hopen hin hend => exact .inr (.inr ⟨hopen, rfl, hrecv, _, _, hin, (if_pos hend).symm⟩)
  | offer e hopen => exact .inr (.inl ⟨hopen, e, rfl, rfl⟩)
  | _ => exact .inl ⟨rfl, rfl⟩

/-! ### Who writes the buffers -/

/-- Of the operations only an accepted ENCODE writes a buffer byte, one of TX_FRAME (40_frame_codec.md R70). -/
theorem OpEffect.writes {a : Nat} (h : OpEffect s i t) (hne : Memory.read t.mem a ≠ Memory.read s.mem a) :
    0x200 ≤ a ∧ a ≤ 0x302 ∧ s.phaseTx = .idle ∧ i = .encode := by
  cases h with
  | encode hidle hp =>
    have hrange := mt read_encoded_outside hne
    exact ⟨by omega, by omega, hidle, rfl⟩
  | decode => exact absurd (by simp) hne
  | _ => exact absurd rfl hne

theorem eq_of_read_write_ne {m : Memory} {a n : Nat} {b : Byte}
    (h : Memory.read (Memory.write m n b) a ≠ Memory.read m a) : a = n :=
  not_not.mp (mt (read_write_other m b) h)

/-- Who writes a buffer byte (10_state.md R30 to R32). -/
theorem Effect.writes {a : Nat} (h : Effect s x t) (hne : Memory.read t.mem a ≠ Memory.read s.mem a) :
    (0x100 ≤ a ∧ a ≤ 0x1FC ∧ ∃ v, x = .hostWrite (BitVec.ofNat 12 a) v) ∨
    (0x200 ≤ a ∧ a ≤ 0x302 ∧ s.phaseTx = .idle ∧ x = .hostWrite 0x000#12 (encode .encode)) ∨
    (0x400 ≤ a ∧ a ≤ 0x502 ∧ s.phaseRx = .idle ∧ ∃ v, x = .hostWrite (BitVec.ofNat 12 a) v) ∨
    (0x400 ≤ a ∧ a ≤ 0x502 ∧ s.phaseRx = .recv ∧ a = 0x400 + s.rxCount.toNat ∧ x = .rxStep) := by
  cases h with
  | operation h =>
    obtain ⟨hlo, hhi, hidle, rfl⟩ := h.writes hne
    exact .inr (.inl ⟨hlo, hhi, hidle, rfl⟩)
  | writeTxParam v ha hi =>
    obtain rfl := eq_of_read_write_ne hne
    exact .inl ⟨by omega, by omega, v, by rw [BitVec.ofNat_toNat, BitVec.setWidth_eq]⟩
  | writeRxFrame v ha hi hidle =>
    obtain rfl := eq_of_read_write_ne hne
    exact .inr (.inr (.inl ⟨by omega, by omega, hidle, v, by rw [BitVec.ofNat_toNat, BitVec.setWidth_eq]⟩))
  | rxByte hrecv hopen hin hroom =>
    have ha : a = 0x400 + s.rxCount.toNat := eq_of_read_write_ne hne
    exact .inr (.inr (.inr ⟨by omega, by omega, hrecv, ha, rfl⟩))
  | rxLast hrecv hopen hin hroom =>
    rw [publish_mem] at hne
    have ha : a = 0x400 + s.rxCount.toNat := eq_of_read_write_ne hne
    exact .inr (.inr (.inr ⟨by omega, by omega, hrecv, ha, rfl⟩))
  | _ => exact absurd rfl hne

/-! ### The two sides -/

theorem not_mem_rxOperations (hi : i ∈ txOperations) : i ∉ rxOperations := by
  revert i; decide

theorem withTxSide_publish (q : Except DecodeFailure Message) (s r : State) :
    withTxSide (publish q s) r = publish q (withTxSide s r) := by
  unfold publish; split <;> rfl

/-- A TX operation does the same with any receive side, and leaves it as it is (20_memory.md R53). -/
theorem OpEffect.ignores_rxSide (h : OpEffect s i t) (hi : i ∈ txOperations) :
    withRxSide t s = t ∧ ∀ r, OpEffect (withRxSide s r) i (withRxSide t r) := by
  cases h with
  | nop => exact absurd hi (by decide)
  | reset => exact absurd hi (by decide)
  | txBusy hi hsend => exact ⟨rfl, fun _ => .txBusy hi hsend⟩
  | txFailed hi hfailed => exact ⟨rfl, fun _ => .txFailed hi hfailed⟩
  | rxBusy hi' => exact absurd hi' (not_mem_rxOperations hi)
  | rxFailed hi' => exact absurd hi' (not_mem_rxOperations hi)
  | encode hidle hp => exact ⟨rfl, fun _ => .encode hidle hp⟩
  | encodeTooLong hidle hp => exact ⟨rfl, fun _ => .encodeTooLong hidle hp⟩
  | checksum hidle hp => exact ⟨rfl, fun _ => .checksum hidle hp⟩
  | checksumTooLong hidle hp => exact ⟨rfl, fun _ => .checksumTooLong hidle hp⟩
  | transmit hidle hflen => exact ⟨rfl, fun _ => .transmit hidle hflen⟩
  | transmitNothing hidle hflen => exact ⟨rfl, fun _ => .transmitNothing hidle hflen⟩
  | receive => exact absurd hi (by decide)
  | decode => exact absurd hi (by decide)

/-- An RX operation does the same with any transmit side, and leaves it as it is (20_memory.md R53). -/
theorem OpEffect.ignores_txSide (h : OpEffect s i t) (hi : i ∈ rxOperations) :
    withTxSide t s = t ∧ ∀ r, OpEffect (withTxSide s r) i (withTxSide t r) := by
  cases h with
  | txBusy hi' => exact absurd hi (not_mem_rxOperations hi')
  | txFailed hi' => exact absurd hi (not_mem_rxOperations hi')
  | rxBusy hi hrecv => exact ⟨rfl, fun _ => .rxBusy hi hrecv⟩
  | rxFailed hi hfailed => exact ⟨rfl, fun _ => .rxFailed hi hfailed⟩
  | receive hidle => exact ⟨rfl, fun _ => .receive hidle⟩
  | decode hidle hn =>
    refine ⟨withTxSide_publish _ _ _, fun r => ?_⟩
    rw [withTxSide_publish]
    exact .decode (s := withTxSide s r) hidle hn
  | _ => exact absurd hi (by decide)

theorem withRxSide_txAccepted (b : Byte) (s r : State) :
    withRxSide (txAccepted b s) r = txAccepted b (withRxSide s r) := by
  by_cases h : s.txSent + 1#9 = s.txFlen
  · rw [txAccepted_of_eq h, txAccepted_of_eq (s := withRxSide s r) h]; rfl
  · rw [txAccepted_of_ne h, txAccepted_of_ne (s := withRxSide s r) h]; rfl

/-- A step of the transmit engine does the same with any receive side, and leaves it as it is (20_memory.md R53). -/
theorem txStep_ignores_rxSide (h : txStep s = .next t) :
    withRxSide t s = t ∧ ∀ r, txStep (withRxSide s r) = .next (withRxSide t r) := by
  rcases txStep_cases h with ⟨hhold, rfl⟩ | ⟨_, as, hsend, hanswer, hroom, ⟨rfl, rfl⟩ | ⟨rfl, rfl⟩⟩
  · exact ⟨rfl, fun r => txStep_of_hold (s := withRxSide t r) hhold⟩
  · refine ⟨withRxSide_txAccepted _ _ s, fun r => ?_⟩
    rw [withRxSide_txAccepted]
    exact txStep_of_accept (s := withRxSide s r) hsend hanswer hroom
  · exact ⟨rfl, fun r => txStep_of_error (s := withRxSide s r) hsend hanswer hroom⟩

theorem withTxSide_rxFinish (s r : State) : withTxSide (rxFinish s) r = rxFinish (withTxSide s r) := by
  by_cases h : s.rxCount = s.rxNeed
  · rw [rxFinish_of_eq h, rxFinish_of_eq (s := withTxSide s r) h, withTxSide_publish]; rfl
  · rw [rxFinish_of_ne h, rxFinish_of_ne (s := withTxSide s r) h]

/-- A step of the receive engine does the same with any transmit side, and leaves it as it is (20_memory.md R53). -/
theorem rxStep_ignores_txSide (h : rxStep s = .next t) :
    withTxSide t s = t ∧ ∀ r, rxStep (withTxSide s r) = .next (withTxSide t r) := by
  rcases rxStep_cases h with
    ⟨hhold, rfl⟩ | ⟨b, es, hrecv, hopen, hin, hroom, rfl⟩ | ⟨e, es, hrecv, hopen, hin, hend, rfl⟩
  · exact ⟨rfl, fun r => rxStep_of_hold (s := withTxSide t r) hhold⟩
  · refine ⟨withTxSide_rxFinish _ s, fun r => ?_⟩
    rw [withTxSide_rxFinish]
    exact rxStep_of_byte (s := withTxSide s r) hrecv hopen hin hroom
  · exact ⟨rfl, fun r => rxStep_of_end (s := withTxSide s r) hrecv hopen hin hend⟩

end

/-- Settles O26: no outcome of an operation touches a channel. -/
theorem operationsLeaveTheChannelsAlone : Obligations.OperationsLeaveTheChannelsAlone :=
  fun _ _ _ h => (exec_eq_next_iff.mp h).channels

/-- Settles O44: an engine that was FAILED still is, unless the action is the write of RESET. -/
theorem onlyResetLeavesFailed : Obligations.OnlyResetLeavesFailed := by
  intro s t h hleft
  rcases step_effect h with ⟨-, rfl⟩ | ⟨x, rest, hagenda, he⟩
  · rcases hleft with ⟨hfailed, hne⟩ | ⟨hfailed, hne⟩ <;> exact absurd hfailed hne
  · have hx : x = .hostWrite 0x000#12 (encode .reset) := by
      rcases hleft with ⟨hfailed, hne⟩ | ⟨hfailed, hne⟩
      · exact (he.phaseTx_of_failed hfailed).resolve_left hne
      · exact (he.phaseRx_of_failed hfailed).resolve_left hne
    exact ⟨rest, hx ▸ hagenda⟩

/-- Settles O45: a status that is an error is not IN_PROGRESS, so in a legal state its engine is not running, and only
RESET and the accepted operations of that engine are left to change it. -/
theorem errorStatusStays : Obligations.ErrorStatusStays := by
  intro s t hl h
  rcases step_effect h with ⟨-, rfl⟩ | ⟨x, rest, hagenda, he⟩
  · exact ⟨fun _ hne => absurd rfl hne, fun _ hne => absurd rfl hne⟩
  · refine ⟨fun herror hne => ?_, fun herror hne => ?_⟩
    · rcases he.txStatus_cases with heq | hsend | ⟨i, rfl, hi⟩
      · exact absurd heq hne
      · rw [hl.tx.in_progress.mpr hsend] at herror
        exact absurd herror (by decide)
      · exact ⟨_, rest, i, hagenda, decode_encode i, hi⟩
    · rcases he.rxStatus_cases with heq | hrecv | ⟨i, rfl, hi⟩
      · exact absurd heq hne
      · rw [hl.rx.in_progress.mpr hrecv] at herror
        exact absurd herror (by decide)
      · exact ⟨_, rest, i, hagenda, decode_encode i, hi⟩

/-- Settles O46: by `Effect.out_cases`. -/
theorem outputGrowsOnlyByAcceptedBytes : Obligations.OutputGrowsOnlyByAcceptedBytes := by
  intro s t h hne
  rcases step_effect h with ⟨-, rfl⟩ | ⟨x, rest, hagenda, he⟩
  · exact absurd rfl hne
  · obtain ⟨rfl, hsend, hout, hanswer⟩ := he.out_cases.resolve_left hne
    exact ⟨hsend, hout, ⟨rest, hagenda⟩, hanswer⟩

/-- Settles O47: by `Effect.rxIn_cases`. -/
theorem inputIsTakenInOrderOnlyWhileReceiving : Obligations.InputIsTakenInOrderOnlyWhileReceiving := by
  intro s t h
  rcases step_effect h with ⟨-, rfl⟩ | ⟨x, rest, hagenda, he⟩
  · exact ⟨fun hne => absurd rfl hne, fun hended => ⟨hended, rfl⟩⟩
  · rcases he.rxIn_cases with ⟨hin, hended⟩ | ⟨hopen, e, rfl, hin⟩ | ⟨hopen, rfl, hrecv, hin⟩
    · exact ⟨fun hne => absurd hin hne, fun h => ⟨hended.trans h, hin⟩⟩
    · exact ⟨fun _ => .inl ⟨e, hin, rest, hagenda⟩, fun h => absurd (hopen.symm.trans h) (by decide)⟩
    · exact ⟨fun _ => .inr ⟨hrecv, ⟨rest, hagenda⟩, hin⟩, fun h => absurd (hopen.symm.trans h) (by decide)⟩

/-- Settles O48: the operations and the engine step of each side ignore the other. -/
theorem enginesAreIndependent : Obligations.EnginesAreIndependent := by
  refine ⟨fun i hi s t h => ?_, fun _ _ => txStep_ignores_rxSide, fun i hi s t h => ?_,
    fun _ _ => rxStep_ignores_txSide⟩
  · obtain ⟨hkept, hsame⟩ := (exec_eq_next_iff.mp h).ignores_rxSide hi
    exact ⟨hkept, fun r => exec_of_opEffect (hsame r)⟩
  · obtain ⟨hkept, hsame⟩ := (exec_eq_next_iff.mp h).ignores_txSide hi
    exact ⟨hkept, fun r => exec_of_opEffect (hsame r)⟩

/-- Settles O49: by `Effect.writes`. -/
theorem eachBufferHasItsWriters : Obligations.EachBufferHasItsWriters := by
  intro s t a h hne
  rcases step_effect h with ⟨-, rfl⟩ | ⟨x, rest, hagenda, he⟩
  · exact absurd rfl hne
  · rcases he.writes hne with
      ⟨hlo, hhi, v, rfl⟩ | ⟨hlo, hhi, hidle, rfl⟩ | ⟨hlo, hhi, hidle, v, rfl⟩ | ⟨hlo, hhi, hrecv, ha, rfl⟩
    · exact .inl ⟨hlo, hhi, v, rest, hagenda⟩
    · exact .inr (.inl ⟨hlo, hhi, hidle, rest, hagenda⟩)
    · exact .inr (.inr (.inl ⟨hlo, hhi, hidle, v, rest, hagenda⟩))
    · exact .inr (.inr (.inr ⟨hlo, hhi, hrecv, ha, rest, hagenda⟩))

end Sys2Proof.Machine

/-! What a run keeps: it starts in a legal state, every step leads on to one, and the frame image stays a frame
(60_exceptions.md R94); an engine run by itself waits only for its channel. -/

namespace Sys2Proof.Machine

section

variable {s t : State} {i : Instr} {x : Action}

/-! ### The frame image -/

theorem TxImageIsFrame.flen_le (h : TxImageIsFrame s) : s.txFlen.toNat ≤ 259 := by
  by_cases hflen : s.txFlen = 0#9
  · simp [hflen]
  · obtain ⟨m, hm⟩ := h hflen
    obtain ⟨hf, -, -⟩ := decodeFrame_eq_ok_iff.mp hm
    have hsize := hf.size
    have hmax := (byteAt (txImage s) 2).isLt
    rw [length_txImage] at hsize
    omega

/-- An image whose length and bytes stay as they are stays a frame. -/
theorem TxImageIsFrame.of_kept (h : TxImageIsFrame s) (hflen : t.txFlen = s.txFlen)
    (hframe : ∀ i, i < 259 → txf t i = txf s i) : TxImageIsFrame t := by
  have hle := h.flen_le
  have himage : txImage t = txImage s := by
    rw [txImage, hflen]
    exact readBytes_congr fun i hi => hframe i (by omega)
  rw [TxImageIsFrame, hflen, himage]
  exact h

theorem txImageIsFrame_of_no_frame (h : s.txFlen = 0#9) : TxImageIsFrame s := fun hne => absurd h hne

theorem txImageIsFrame_encoded (hp : plen s ≤ 253) : TxImageIsFrame (encoded s) := fun _ =>
  ⟨_, (congrArg decodeFrame (txImage_encoded hp)).trans (decodeFrame_frameBytes ((length_txParams s).trans_le hp))⟩

theorem OpEffect.imageIsFrame (h : OpEffect s i t) (hs : TxImageIsFrame s) : TxImageIsFrame t := by
  cases h with
  | reset => exact txImageIsFrame_of_no_frame rfl
  | encode hidle hp => exact txImageIsFrame_encoded hp
  | encodeTooLong => exact txImageIsFrame_of_no_frame rfl
  | decode => exact hs.of_kept (publish_txFlen _ _) fun _ _ => by simp [txf]
  | _ => exact hs

theorem Effect.imageIsFrame (h : Effect s x t) (hs : TxImageIsFrame s) : TxImageIsFrame t := by
  cases h with
  | operation h => exact h.imageIsFrame hs
  | writeTxParam v ha hi =>
    exact hs.of_kept rfl fun j _ => read_write_other _ _ (by rw [Config.txFrameBase]; omega)
  | writeRxFrame v ha hi =>
    exact hs.of_kept rfl fun j _ => read_write_other _ _ (by rw [Config.txFrameBase]; omega)
  | @rxByte b es => exact hs.of_kept rfl (txKept_rxStored b { s with rxIn := es }).frame
  | @rxLast b es =>
    refine hs.of_kept (publish_txFlen _ _) fun j hj => ?_
    rw [txf, publish_mem]
    exact (txKept_rxStored b { s with rxIn := es }).frame j hj
  | _ => exact hs

theorem step_imageIsFrame (hs : TxImageIsFrame s) (h : step s = .next t) : TxImageIsFrame t := by
  rcases step_effect h with ⟨-, rfl⟩ | ⟨x, rest, -, he⟩
  · exact hs
  · exact he.imageIsFrame hs

/-! ### A legal state's step goes on -/

theorem acceptTx_continues {op : State → Result} (hop : ∃ t, op (s.setOpErr .accepted) = .next t) :
    Continues (acceptTx s op) := by
  by_cases hidle : s.phaseTx = .idle
  · rw [acceptTx_idle hidle]; exact hop
  · obtain ⟨e, -, h⟩ := acceptTx_not_idle hidle op
    exact ⟨_, h⟩

theorem acceptRx_continues {op : State → Result} (hop : ∃ t, op (s.setOpErr .accepted) = .next t) :
    Continues (acceptRx s op) := by
  by_cases hidle : s.phaseRx = .idle
  · rw [acceptRx_idle hidle]; exact hop
  · obtain ⟨e, -, h⟩ := acceptRx_not_idle hidle op
    exact ⟨_, h⟩

/-- An operation stops only at an RX_NBYTES that 10_state.md R24 rules out. -/
theorem exec_continues (i : Instr) (hn : s.rxNbytes.toNat ≤ 259) : Continues (exec i s) := by
  cases i with
  | nop => exact ⟨_, rfl⟩
  | encode => exact acceptTx_continues ((encodeOp_next _).imp fun _ h => h.1)
  | transmit => exact acceptTx_continues ((transmitOp_next _).imp fun _ h => h.1)
  | checksum => exact acceptTx_continues ((checksumOp_next _).imp fun _ h => h.1)
  | receive => exact acceptRx_continues ⟨_, rfl⟩
  | decode => exact acceptRx_continues ⟨_, decodeOp_ok (s := s.setOpErr .accepted) hn⟩
  | reset => exact ⟨_, rfl⟩

theorem memWrite_continues (a : Addr) (v : Word) (hn : s.rxNbytes.toNat ≤ 259) : Continues (memWrite a v s) := by
  by_cases ha : a = 0x000#12
  · subst ha
    rw [memWrite_op, dispatchWord]
    split
    · next i _ => exact exec_continues i hn
    · exact ⟨_, rfl⟩
  · exact memWrite_next v ha s

/-- A running transmission has a byte of TX_FRAME left to offer. -/
theorem txStep_continues (hl : LegalTx s) : Continues (txStep s) := by
  rcases hanswers : s.txAnswers with _ | ⟨r, as⟩
  · exact ⟨s, txStep_of_hold (.inr hanswers)⟩
  · by_cases hsend : s.phaseTx = .send
    · have hroom : s.txSent.toNat ≤ 258 := by
        have := hl.sent_lt hsend
        have := hl.flen_le
        omega
      cases r with
      | accept => exact ⟨_, txStep_of_accept hsend hanswers hroom⟩
      | error => exact ⟨_, txStep_of_error hsend hanswers hroom⟩
    · exact ⟨s, txStep_of_hold (.inl hsend)⟩

/-- A running reception has room in RX_FRAME for the byte it takes. -/
theorem rxStep_continues (hl : LegalRx s) : Continues (rxStep s) := by
  by_cases hhold : s.phaseRx ≠ .recv ∨ s.rxInEnded = true ∨ s.rxIn = []
  · exact ⟨s, rxStep_of_hold hhold⟩
  · simp only [not_or, not_not, Bool.not_eq_true] at hhold
    obtain ⟨hrecv, hopen, hin⟩ := hhold
    obtain ⟨e, es, hin⟩ := List.exists_cons_of_ne_nil hin
    cases e with
    | byte b => exact ⟨_, rxStep_of_byte hrecv hopen hin (hl.count_lt hrecv)⟩
    | closed => exact ⟨_, rxStep_of_end hrecv hopen hin rfl⟩
    | error => exact ⟨_, rxStep_of_end hrecv hopen hin rfl⟩

theorem perform_continues (x : Action) (hl : s.Legal) : Continues (perform x s) := by
  cases x with
  | hostWrite a v => exact memWrite_continues a v hl.rx.nbytes
  | txStep => exact txStep_continues hl.tx
  | rxStep => exact rxStep_continues hl.rx
  | _ => exact ⟨_, rfl⟩

theorem step_continues (hl : s.Legal) : Continues (step s) := by
  rcases hagenda : s.agenda with _ | ⟨x, rest⟩
  · exact ⟨s, by simp only [step, hagenda]⟩
  · rw [step_of_agenda_cons hagenda]
    exact perform_continues x (hl.scheduled rest)

/-! ### Runs -/

/-- A predicate from which a step goes on, and which it keeps, holds at the end of every run. -/
theorem run_of_invariant {P : State → Prop} (hstep : ∀ s, P s → ∃ t, step s = .next t ∧ P t) (k : Nat) :
    ∀ s, P s → ∃ t, Host.Core.run core k s = .next t ∧ P t := by
  induction k with
  | zero => exact fun s hs => ⟨s, rfl, hs⟩
  | succ k ih =>
    intro s hs
    obtain ⟨u, hu, hPu⟩ := hstep s hs
    rw [run_succ_of_step k hu]
    exact ih u hPu

theorem legal_reset : State.reset.Legal :=
  ⟨List.Pairwise.nil, fun _ hc => absurd hc (List.not_mem_nil), legalTx_of_idle rfl (.inl rfl) (by decide) (by decide),
    legalRx_reset, rfl, fun _ => rfl⟩

/-! ### An engine run by itself -/

theorem Effect.agenda_eq (h : Effect s x t) : t.agenda = s.agenda := by
  cases h with
  | operation h =>
    obtain ⟨-, -, -, -, hagenda, -⟩ := h.channels
    exact hagenda
  | rxLast => exact publish_agenda _ _
  | _ => rfl

/-- An agent that acts alone, and whose every action either finds it stopped or brings the count `μ`, at most 258
while it runs, one further, has stopped after as many actions as are missing to 259. -/
theorem run_until_stopped {Stopped : State → Prop} {μ : State → Nat} {x : Action}
    (hmax : ∀ s : State, s.Legal → ¬Stopped s → μ s ≤ 258)
    (hstep : ∀ (s t : State) (rest : List Action), s.Legal → Effect (s.scheduled rest) x t →
      Stopped t ∨ (¬Stopped s ∧ μ t = μ s + 1)) (k : Nat) :
    ∀ s : State, s.Legal → s.agenda = List.replicate k x → (¬Stopped s → 259 ≤ μ s + k) →
      ∃ t, Host.Core.run core k s = .next t ∧ Stopped t := by
  induction k with
  | zero =>
    intro s hl _ hleft
    refine ⟨s, rfl, not_not.mp fun hrun => ?_⟩
    have := hmax s hl hrun
    have := hleft hrun
    omega
  | succ k ih =>
    intro s hl hagenda hleft
    have hstep_eq : step s = perform x (s.scheduled (List.replicate k x)) := step_of_agenda_cons hagenda
    obtain ⟨t, ht⟩ := step_continues hl
    have he : Effect (s.scheduled (List.replicate k x)) x t := effect_of_perform (hstep_eq.symm.trans ht)
    rw [run_succ_of_step k ht]
    refine ih t (step_legal hl ht) he.agenda_eq fun hrun => ?_
    obtain ⟨hrun', hμ⟩ := (hstep s t _ hl he).resolve_left hrun
    have := hleft hrun'
    omega

/-- The transmit engine is not running, or has no answer waiting. -/
def TxStopped (s : State) : Prop := s.phaseTx ≠ .send ∨ s.txAnswers = []

/-- The receive engine is not running, or has no event waiting. -/
def RxStopped (s : State) : Prop := s.phaseRx ≠ .recv ∨ s.rxIn = []

theorem txStep_stops_or_sends (s t : State) (rest : List Action) (_ : s.Legal)
    (h : Effect (s.scheduled rest) .txStep t) : TxStopped t ∨ (¬TxStopped s ∧ t.txSent.toNat = s.txSent.toNat + 1) := by
  cases h with
  | txHold h => exact .inl h
  | txByte hsend hanswer hroom =>
    simp only [scheduled_phaseTx, scheduled_txAnswers] at hsend hanswer
    exact .inr ⟨by simp [TxStopped, hsend, hanswer], count_succ hroom⟩
  | txLast => exact .inl (.inl (by simp))
  | txError => exact .inl (.inl (by simp))

theorem rxStep_stops_or_takes (s t : State) (rest : List Action) (hl : s.Legal)
    (h : Effect (s.scheduled rest) .rxStep t) :
    RxStopped t ∨ (¬RxStopped s ∧ t.rxCount.toNat = s.rxCount.toNat + 1) := by
  cases h with
  | rxHold h =>
    rcases h with hphase | hended | hin
    · exact .inl (.inl hphase)
    · exact .inl (.inr (hl.channel.2 hended))
    · exact .inl (.inr hin)
  | rxByte hrecv hopen hin hroom =>
    simp only [scheduled_phaseRx, scheduled_rxIn] at hrecv hin
    exact .inr ⟨by simp [RxStopped, hrecv, hin], count_succ hroom⟩
  | rxLast => exact .inl (.inl (by simp))
  | rxEnd => exact .inl (.inl (by simp))

theorem txSent_le_of_running (s : State) (hl : s.Legal) (hrun : ¬TxStopped s) : s.txSent.toNat ≤ 258 := by
  simp only [TxStopped, not_or, not_not] at hrun
  have := hl.tx.sent_lt hrun.1
  have := hl.tx.flen_le
  omega

theorem rxCount_le_of_running (s : State) (hl : s.Legal) (hrun : ¬RxStopped s) : s.rxCount.toNat ≤ 258 := by
  simp only [RxStopped, not_or, not_not] at hrun
  exact hl.rx.count_lt hrun.1

end

/-- Settles O2: the power-on state meets each part of legality, and TX_FLEN is 0. -/
theorem powerOnStateIsLegal : Obligations.PowerOnStateIsLegal := ⟨legal_reset, txImageIsFrame_of_no_frame rfl⟩

/-- Settles O4: every outcome of an action keeps the image a frame. -/
theorem everyStepKeepsTheImageAFrame : Obligations.EveryStepKeepsTheImageAFrame :=
  fun _ _ hs h => step_imageIsFrame hs h

/-- Settles O5: the counts of a legal state keep every index inside its buffer. -/
theorem legalStepsContinue : Obligations.LegalStepsContinue := fun _ hl => step_continues hl

/-- Settles O6: legality and the frame image are an invariant of runs, and hold at power-on. -/
theorem noScheduleStopsTheMachine : Obligations.NoScheduleStopsTheMachine := by
  intro xs k
  refine run_of_invariant (P := fun s => s.Legal ∧ TxImageIsFrame s) (fun s ⟨hl, hs⟩ => ?_) k _
    ⟨legal_reset.scheduled xs, txImageIsFrame_of_no_frame rfl⟩
  obtain ⟨t, ht⟩ := step_continues hl
  exact ⟨t, ht, step_legal hl ht, step_imageIsFrame hs ht⟩

/-- Settles O38: each step of an engine that is not stopped moves one byte, and there are at most 259 to move. -/
theorem enginesWaitOnlyForTheirChannel : Obligations.EnginesWaitOnlyForTheirChannel := by
  intro s hl
  exact ⟨run_until_stopped txSent_le_of_running txStep_stops_or_sends 259 _ (hl.scheduled _) rfl (fun _ => by omega),
    run_until_stopped rxCount_le_of_running rxStep_stops_or_takes 259 _ (hl.scheduled _) rfl (fun _ => by omega)⟩

end Sys2Proof.Machine

/-! The form of the memory is canonical (log 2): what a memory in it reads as, over all power-on contents, says which
bytes it stores, and they determine the list. -/

namespace Sys2Proof.Machine

section

variable {m n : Memory}

/-- A stored byte is the one entry of its address. -/
theorem lookup_eq_some_iff (h : Memory.wf m) {a : Nat} {b : Byte} : Memory.lookup m a = some b ↔ (a, b) ∈ m := by
  induction m with
  | nil => simp [Memory.lookup]
  | cons c m ih =>
    obtain ⟨k, v⟩ := c
    obtain ⟨hlt, hm⟩ := List.pairwise_cons.mp h
    rw [Memory.lookup, List.mem_cons]
    split
    · next hk =>
      subst hk
      have hnot : (a, b) ∉ m := fun hc => Nat.lt_irrefl a (hlt _ hc)
      simp [hnot, eq_comm]
    · next hk => rw [ih hm]; simp [hk]

/-- A byte stored in one memory is stored in any other that reads alike: where the other has none, it would read as
any power-on byte there is. -/
theorem lookup_eq_some_of_readWith_eq (h : ∀ (p : Nat → Byte) (a : Nat), Memory.readWith p m a = Memory.readWith p n a)
    {a : Nat} {b : Byte} (hm : Memory.lookup m a = some b) : Memory.lookup n a = some b := by
  rcases hn : Memory.lookup n a with _ | c
  · have hread := h (fun _ => b + 1#8) a
    simp only [Memory.readWith, hm, hn, Option.getD_some, Option.getD_none] at hread
    bv_omega
  · have hread := h (fun _ => 0#8) a
    simp only [Memory.readWith, hm, hn, Option.getD_some] at hread
    rw [hread]

theorem eq_of_wf_of_mem_iff (hm : Memory.wf m) (hn : Memory.wf n) (h : ∀ c, c ∈ m ↔ c ∈ n) : m = n := by
  have : Std.Antisymm fun x y : Host.Cell => x.1 < y.1 := ⟨fun _ _ hxy hyx => absurd hyx (Nat.lt_asymm hxy)⟩
  have : Std.Irrefl fun x y : Host.Cell => x.1 < y.1 := ⟨fun x => Nat.lt_irrefl x.1⟩
  exact List.Pairwise.eq_of_mem_iff hm hn h

end

/-- Settles O43: memories that read alike store the same bytes, and a canonical list is determined by its entries. -/
theorem equalReadsMeanEqualMemories : Obligations.EqualReadsMeanEqualMemories := by
  intro m n hm hn h
  refine eq_of_wf_of_mem_iff hm hn fun ⟨a, b⟩ => ?_
  rw [← lookup_eq_some_iff hm, ← lookup_eq_some_iff hn]
  exact ⟨lookup_eq_some_of_readWith_eq h, lookup_eq_some_of_readWith_eq fun p a => (h p a).symm⟩

end Sys2Proof.Machine
